-- ==== Sys2Proof/Word.lean ====
section
/-! DEFINITION. The words and bytes the Obispan 3216 manual speaks of, and their plainest arithmetic. -/

namespace Sys2Proof

/-- A byte on the drop line, of a record, or of half a window word. -/
abbrev Byte := BitVec 8

/-- One 16-bit word of the host window (R172). -/
abbrev Word := BitVec 16

/-- A saturating counter's increase by 1: the counter stops at its largest value instead of wrapping
(00_scope.md, "Numbers and ranges"). -/
def satInc {w : Nat} (x : BitVec w) : BitVec w :=
  if x = BitVec.allOnes w then x else x + 1#w

/-- One bit as a one-bit word, set for `true`. -/
def bit (b : Bool) : BitVec 1 := BitVec.ofBool b

end Sys2Proof
end

