-- ==== Sys2Proof/Config.lean ====
section
/-! DEFINITION. What the part fixes once: its capacities, its reserved line values and its reset setup values. -/

namespace Sys2Proof

/-- A Station Table entry's index, 0 to 15 (R1). -/
abbrev EntryId := Fin 16

/-- A record handle, 0 to 63 (R120). -/
abbrev Handle := Fin 64

/-- A command slot's number, 0 to 31 (R156). -/
abbrev SlotId := Fin 32

/-- A Record Store block's number, 0 to 511 (R117). -/
abbrev Block := Fin 512

namespace Config

/-- The value IDENT returns at every read (R174). -/
def ident : Word := 0x3216#16

/-- Marker begins a frame (R82). -/
def marker : Byte := 0xE0#8

/-- End closes a frame (R82). -/
def endMark : Byte := 0xE1#8

/-- Shift announces a shifted body byte (R82). -/
def shift : Byte := 0xE2#8

/-- What a shifted body byte is exclusive-ored with (R82). -/
def shiftMask : Byte := 0x0F#8

/-- The address of a BROADCAST frame, and the address its completion carries (R25, R161). -/
def broadcastAddress : Byte := 63#8

/-- The longest payload, in bytes (R83). -/
def maxPayload : Nat := 480

/-- The longest body, in bytes: three header bytes, the payload and two check bytes (R83). -/
def maxBody : Nat := 485

/-- Bytes to a block (R117). -/
def blockBytes : Nat := 32

/-- Blocks in the Record Store (R117). -/
def blockTotal : Nat := 512

/-- The most that command slots in use and waiting completions come to together (R159). -/
def commitmentLimit : Nat := 32

/-- The divisor RATE holds after hardware reset (R81). -/
def resetRate : BitVec 12 := 104#12

/-- The guard time after hardware reset, in character times (R100). -/
def resetGuardTime : BitVec 4 := 2#4

/-- The gap time after hardware reset, in character times (R100). -/
def resetGapTime : BitVec 4 := 4#4

/-- The reply timeout after hardware reset, in character times (R100). -/
def resetReplyTimeout : Byte := 20#8

/-- The poll period after hardware reset, in beats (R75). -/
def resetPollPeriod : Byte := 32#8

/-- The probe interval after hardware reset, in beats (R52). -/
def resetProbeInterval : Byte := 16#8

/-- The probe limit after hardware reset (R52). -/
def resetProbeLimit : Byte := 32#8

/-- The hold backoff after hardware reset, in beats (R76). -/
def resetHoldBackoff : Byte := 4#8

/-- The coalescing threshold after hardware reset (R165). -/
def resetThreshold : BitVec 6 := 1#6

/-- The LOW mark after hardware reset (R130). -/
def resetLow : Nat := 64

/-- The HIGH mark after hardware reset (R130). -/
def resetHigh : Nat := 128

/-- What a byte of a block reads as that nothing has written since reset (assumption 2: the host can never
read such a byte, since ALLOC zeroes its blocks and an arrival's bytes are written before they are read). -/
def unwrittenByte : Byte := 0#8

end Config

end Sys2Proof
end

