-- ==== Sys2Proof/Syntax.lean ====
section
/-! DEFINITION. The commands of the Obispan 3216: one constructor for each row of spec/opcode_table.json,
with the row's operands. A command taken through COMMAND reads its parameters from PARAM0 to PARAM5 as
they stand when it is taken (R153), so it has no operand of its own. -/

namespace Sys2Proof

/-- The steps of the part, each whole and indivisible (95_what_each_step_holds.md). -/
inductive Instr where
  /-- SEND: code 1 written to COMMAND. -/
  | send
  /-- POLL: code 2 written to COMMAND. -/
  | poll
  /-- ACTION: code 3 written to COMMAND. -/
  | action
  /-- BROADCAST: code 4 written to COMMAND. -/
  | broadcast
  /-- ATTACH: code 5 written to COMMAND. -/
  | attach
  /-- DETACH: code 6 written to COMMAND. -/
  | detach
  /-- PAUSE: code 7 written to COMMAND. -/
  | pause
  /-- RESUME: code 8 written to COMMAND. -/
  | resume
  /-- REVIVE: code 9 written to COMMAND. -/
  | revive
  /-- FLUSH: code 10 written to COMMAND. -/
  | flush
  /-- STATION_QUERY: code 11 written to COMMAND. -/
  | stationQuery
  /-- LINE_QUERY: code 12 written to COMMAND. -/
  | lineQuery
  /-- CLEAR_COUNTERS: code 13 written to COMMAND. -/
  | clearCounters
  /-- ALLOC: code 14 written to COMMAND. -/
  | alloc
  /-- SEAL: code 15 written to COMMAND (`seal` alone is a word of Lean's). -/
  | sealRecord
  /-- FREE: code 16 written to COMMAND. -/
  | free
  /-- RELEASE: code 17 written to COMMAND. -/
  | release
  /-- SET_MARKS: code 18 written to COMMAND. -/
  | setMarks
  /-- LINE_ABORT: code 19 written to COMMAND. -/
  | lineAbort
  /-- CONTROLLER_RESET: code 20 written to COMMAND. -/
  | controllerReset
  /-- BAD_CODE_COMMAND: a value that names no command written to COMMAND. -/
  | badCodeCommand (code : Word)
  /-- RUN_START: a write of CONTROL with its RUN bit 1; `ignored` are the word's bits 15 to 1. -/
  | runStart (ignored : BitVec 15)
  /-- RUN_STOP: a write of CONTROL with its RUN bit 0; `ignored` are the word's bits 15 to 1. -/
  | runStop (ignored : BitVec 15)
  /-- CAUSE_ENABLE_WRITE. -/
  | causeEnableWrite (value : Word)
  /-- CAUSE_ACK: a write of CAUSE_ACK. -/
  | causeAck (value : Word)
  /-- CQ_INFO_WRITE: a write of CQ_INFO, of any value. -/
  | cqInfoWrite (value : Word)
  /-- WIN_SELECT_WRITE. -/
  | winSelectWrite (value : Word)
  /-- WIN_OFFSET_WRITE. -/
  | winOffsetWrite (value : Word)
  /-- WIN_DATA_READ: a read of WIN_DATA. -/
  | winDataRead
  /-- WIN_DATA_WRITE. -/
  | winDataWrite (value : Word)
  /-- RATE_WRITE. -/
  | rateWrite (value : Word)
  /-- LINE_TIMES_WRITE. -/
  | lineTimesWrite (value : Word)
  /-- REPLY_TIME_WRITE. -/
  | replyTimeWrite (value : Word)
  /-- POLL_TIME_WRITE. -/
  | pollTimeWrite (value : Word)
  /-- PROBE_SETUP_WRITE. -/
  | probeSetupWrite (value : Word)
  /-- BACKOFF_WRITE. -/
  | backoffWrite (value : Word)
  /-- COALESCE_WRITE. -/
  | coalesceWrite (value : Word)
  /-- LOST_SUMMARY_WRITE. -/
  | lostSummaryWrite (value : Word)
  /-- OTHER_REGISTER_WRITE: a write of a PARAM register, or of a register R172 marks ignored. -/
  | otherRegisterWrite (offset : BitVec 5) (value : Word)
  /-- HARDWARE_RESET: a falling edge on the RESET pin. -/
  | hardwareReset
  /-- RESET_RELEASE: a rising edge on the RESET pin. -/
  | resetRelease
  /-- CHARACTER_RECEIVED: the eight data bits, the parity bit and the stop bit the receiver sampled. -/
  | characterReceived (value : Byte) (parity stop : Bool)
  /-- INPUT_RETURN_AFTER_STOP_ERROR: the receive input has been at 1 for one bit time. -/
  | inputReturnAfterStopError
  /-- TRANSMIT_CHARACTER: the previous character's stop bit ends and the next character begins. -/
  | transmitCharacter
  /-- FRAME_SENT: the last character's stop bit has gone out. -/
  | frameSent
  /-- GUARD_TIMER_EXPIRY. -/
  | guardTimerExpiry
  /-- REPLY_TIMER_EXPIRY. -/
  | replyTimerExpiry
  /-- GAP_TIMER_EXPIRY. -/
  | gapTimerExpiry
  /-- ECHO_DEADLINE: the deadline of the oldest character in the echo list passes. -/
  | echoDeadline
  /-- DRAIN_END: the receiver's span in DRAIN ends. -/
  | drainEnd
  /-- POLL_PERIOD_EXPIRY. -/
  | pollPeriodExpiry
  /-- BACKOFF_EXPIRY: the backoff timer of the entry runs out. -/
  | backoffExpiry (entry : EntryId)
  /-- PROBE_TIMER_EXPIRY: the probe timer of the entry runs out. -/
  | probeTimerExpiry (entry : EntryId)
  /-- LINGER_EXPIRY. -/
  | lingerExpiry
  deriving DecidableEq, Repr

end Sys2Proof
end

