-- ==== Sys2Proof/WellFormed.lean ====
section
/-! DEFINITION. Which commands are well formed: two rows of the table hold only some of the words their
operands could spell, the others belonging to other rows. -/

namespace Sys2Proof

/-- A value written to COMMAND names a command: 1 to 20 (chapter 11, section 11.3). -/
def namesCommand (code : Word) : Bool :=
  decide (1 ≤ code.toNat) && decide (code.toNat ≤ 20)

/-- The register at `offset` is a PARAM register, 8 to 13 (R172). -/
def isParamOffset (offset : BitVec 5) : Bool :=
  decide (8 ≤ offset.toNat) && decide (offset.toNat ≤ 13)

/-- R172's table marks a write of the register at `offset` "ignored": IDENT, STATUS, CAUSE, CMD_RESULT,
CQ_TAG, CQ_DETAIL, CQ_EXTENT, IN_HEAD, IN_LENGTH and FREE_BLOCKS. -/
def isIgnoredOffset (offset : BitVec 5) : Bool :=
  [0, 2, 3, 7, 14, 16, 17, 18, 19, 23].contains offset.toNat

/-- The command's operands belong to its own row. -/
def Instr.wellFormed : Instr → Bool
  | .badCodeCommand code => !namesCommand code
  | .otherRegisterWrite offset _ => isParamOffset offset || isIgnoredOffset offset
  | .send | .poll | .action | .broadcast | .attach | .detach | .pause | .resume | .revive | .flush
  | .stationQuery | .lineQuery | .clearCounters | .alloc | .sealRecord | .free | .release | .setMarks
  | .lineAbort | .controllerReset | .runStart _ | .runStop _ | .causeEnableWrite _ | .causeAck _
  | .cqInfoWrite _ | .winSelectWrite _ | .winOffsetWrite _ | .winDataRead | .winDataWrite _
  | .rateWrite _ | .lineTimesWrite _ | .replyTimeWrite _ | .pollTimeWrite _ | .probeSetupWrite _
  | .backoffWrite _ | .coalesceWrite _ | .lostSummaryWrite _ | .hardwareReset | .resetRelease
  | .characterReceived _ _ _ | .inputReturnAfterStopError | .transmitCharacter | .frameSent
  | .guardTimerExpiry | .replyTimerExpiry | .gapTimerExpiry | .echoDeadline | .drainEnd
  | .pollPeriodExpiry | .backoffExpiry _ | .probeTimerExpiry _ | .lingerExpiry => true

end Sys2Proof
end

