-- ==== Sys2Proof/Decode.lean ====
section
/-! DEFINITION. The table of this block gives no row any bits (98_reader.md: 54 rows, none with fixed bits
or fields), so no table word spells a command. What the manual does encode is the bus: which command a
write or a read of a window register is (R172, chapter 11), and back. -/

namespace Sys2Proof

/-- The command a table word spells: none, since no row of spec/opcode_table.json gives bits. -/
def decodeTableWord (_nbits _w : Nat) : Option Instr := none

/-- The command a value written to COMMAND is: the codes of chapter 11, section 11.3; every other value is
BAD_CODE (R153, R187: the whole 16-bit value is compared). -/
def commandOfCode (code : Word) : Instr :=
  match code.toNat with
  | 1 => .send
  | 2 => .poll
  | 3 => .action
  | 4 => .broadcast
  | 5 => .attach
  | 6 => .detach
  | 7 => .pause
  | 8 => .resume
  | 9 => .revive
  | 10 => .flush
  | 11 => .stationQuery
  | 12 => .lineQuery
  | 13 => .clearCounters
  | 14 => .alloc
  | 15 => .sealRecord
  | 16 => .free
  | 17 => .release
  | 18 => .setMarks
  | 19 => .lineAbort
  | 20 => .controllerReset
  | _ => .badCodeCommand code

/-- The command a bus write of `value` to the register at `offset` is (R172): one command for every offset. -/
def commandOfWrite (offset : BitVec 5) (value : Word) : Instr :=
  match offset.toNat with
  | 1 => if value.getLsbD 0 then .runStart (value.extractLsb' 1 15) else .runStop (value.extractLsb' 1 15)
  | 4 => .causeEnableWrite value
  | 5 => .causeAck value
  | 6 => commandOfCode value
  | 15 => .cqInfoWrite value
  | 20 => .winSelectWrite value
  | 21 => .winOffsetWrite value
  | 22 => .winDataWrite value
  | 24 => .rateWrite value
  | 25 => .lineTimesWrite value
  | 26 => .replyTimeWrite value
  | 27 => .pollTimeWrite value
  | 28 => .probeSetupWrite value
  | 29 => .backoffWrite value
  | 30 => .coalesceWrite value
  | 31 => .lostSummaryWrite value
  | _ => .otherRegisterWrite offset value

/-- The command a bus read of the register at `offset` is: a read of WIN_DATA is one, and no other read
changes any state (R173). -/
def commandOfRead (offset : BitVec 5) : Option Instr :=
  if offset.toNat = 22 then some .winDataRead else none

/-- A bus access: a read of the register at an offset, or a write of a whole word to it (R172). -/
inductive BusAccess where
  | read (offset : BitVec 5)
  | write (offset : BitVec 5) (value : Word)
  deriving DecidableEq, Repr

/-- The levels of the bus input pins: CS, RD and WR, active low, A4 to A0, and D15 to D0 as the host drives them
(section 11.5). -/
structure BusPins where
  csLow : Bool
  rdLow : Bool
  wrLow : Bool
  offset : BitVec 5
  data : Word
  deriving DecidableEq, Repr

/-- CS and RD are active and WR is not: what a read access looks like while it lasts. -/
def BusPins.reading (p : BusPins) : Bool := p.csLow && p.rdLow && !p.wrLow

/-- CS and WR are active and RD is not: what a write access looks like until its WR rises. -/
def BusPins.writing (p : BusPins) : Bool := p.csLow && p.wrLow && !p.rdLow

/-- RD falls, CS being low from then on and WR inactive before and after (R189). That a CS which falls with RD is in
time, and that a WR which rises as RD falls makes it no access, are the model's choice (assumption 4). -/
def readEdge (before after : BusPins) : Bool := !before.rdLow && !before.wrLow && after.reading

/-- WR rises, CS being low until then and RD inactive before and after (R189). That a CS which rises with WR is in time
is the model's choice (assumption 4). -/
def writeEdge (before after : BusPins) : Bool := before.writing && !after.wrLow && !after.rdLow

/-- The access that a change of the bus pins takes (R189): a read at the falling edge of RD and a write at the rising
edge of WR, each while CS is low; none when both strobes are active or both change. The offset and the word are those
standing before the edge, as the bus timing table has them stable there (assumption 4). -/
def busAccess (before after : BusPins) : Option BusAccess :=
  if readEdge before after then some (.read before.offset)
  else if writeEdge before after then some (.write before.offset before.data)
  else none

/-- The command an access is: every write is one, and of the reads that of WIN_DATA (R173). -/
def commandOfAccess : BusAccess → Option Instr
  | .read offset => commandOfRead offset
  | .write offset value => some (commandOfWrite offset value)

/-- The bus write that is the command, as register offset and value; none for a command that is no write. -/
def busWriteOf : Instr → Option (BitVec 5 × Word)
  | .send => some (6#5, 1#16)
  | .poll => some (6#5, 2#16)
  | .action => some (6#5, 3#16)
  | .broadcast => some (6#5, 4#16)
  | .attach => some (6#5, 5#16)
  | .detach => some (6#5, 6#16)
  | .pause => some (6#5, 7#16)
  | .resume => some (6#5, 8#16)
  | .revive => some (6#5, 9#16)
  | .flush => some (6#5, 10#16)
  | .stationQuery => some (6#5, 11#16)
  | .lineQuery => some (6#5, 12#16)
  | .clearCounters => some (6#5, 13#16)
  | .alloc => some (6#5, 14#16)
  | .sealRecord => some (6#5, 15#16)
  | .free => some (6#5, 16#16)
  | .release => some (6#5, 17#16)
  | .setMarks => some (6#5, 18#16)
  | .lineAbort => some (6#5, 19#16)
  | .controllerReset => some (6#5, 20#16)
  | .badCodeCommand code => some (6#5, code)
  | .runStart ignored => some (1#5, ignored ++ 1#1)
  | .runStop ignored => some (1#5, ignored ++ 0#1)
  | .causeEnableWrite value => some (4#5, value)
  | .causeAck value => some (5#5, value)
  | .cqInfoWrite value => some (15#5, value)
  | .winSelectWrite value => some (20#5, value)
  | .winOffsetWrite value => some (21#5, value)
  | .winDataWrite value => some (22#5, value)
  | .rateWrite value => some (24#5, value)
  | .lineTimesWrite value => some (25#5, value)
  | .replyTimeWrite value => some (26#5, value)
  | .pollTimeWrite value => some (27#5, value)
  | .probeSetupWrite value => some (28#5, value)
  | .backoffWrite value => some (29#5, value)
  | .coalesceWrite value => some (30#5, value)
  | .lostSummaryWrite value => some (31#5, value)
  | .otherRegisterWrite offset value => some (offset, value)
  | .winDataRead | .hardwareReset | .resetRelease | .characterReceived _ _ _
  | .inputReturnAfterStopError | .transmitCharacter | .frameSent | .guardTimerExpiry
  | .replyTimerExpiry | .gapTimerExpiry | .echoDeadline | .drainEnd | .pollPeriodExpiry
  | .backoffExpiry _ | .probeTimerExpiry _ | .lingerExpiry => none

end Sys2Proof
end

