-- ==== Sys2Proof/Machine/State.lean ====
section
/-! DEFINITION. The state of the Obispan 3216, block by block as 00_scope.md names the blocks, with each
block's values after hardware reset. Everything is plain data. -/

namespace Sys2Proof.Machine

/-- Why the machine would stop with a fault. The manual gives every command its effect in every state, so
no command raises one: misuse of the window is the cause HOST_FAULT (R183), a next state. -/
inductive Fault where
  /-- Raised by no command; it stands so that the type has a value. Safe: no step answers it. -/
  | none
  deriving DecidableEq, Repr

/-- Why the machine would refuse a command term. A command the part itself refuses (R155) is a next state
with CMD_RESULT written, not one of these. -/
inductive Refusal where
  /-- Raised by exec's arm of a row that has no meaning yet (none is left). Safe: the machine stops. -/
  | notModelled (mnemonic : String)
  /-- Raised by BAD_CODE_COMMAND with a code that names a command, and by OTHER_REGISTER_WRITE at the
  offset of a register that has a row of its own: the term is ill formed (Instr.wellFormed), the write
  it spells being another row. Safe: the machine stops, and no write of the part is lost by it. -/
  | otherRow
  deriving DecidableEq, Repr

/-! ### Host Window (chapter 10) -/

/-- The kind of the latest host fault (R183). -/
inductive FaultKind where
  | none
  | windowRead
  | windowWrite
  | queueEmpty
  deriving DecidableEq, Repr

/-- The Host Window's own state (R175, R176, R180, R181, R183). The condition causes COMPLETION and
INBOUND, CAUSE, STATUS and the interrupt output are computed (Machine/Flags.lean). -/
structure HostWindow where
  /-- RUN, the bit of CONTROL. -/
  run : Bool
  /-- CAUSE_ENABLE: bit n − 1 enables the cause of code n. -/
  causeEnable : BitVec 5
  /-- The latched cause STATION_LOST, code 1. -/
  stationLost : Bool
  /-- The latched cause RESTRAINT, code 2. -/
  restraintCause : Bool
  /-- The latched cause HOST_FAULT, code 5. -/
  hostFault : Bool
  /-- The host fault kind shown in STATUS. -/
  faultKind : FaultKind
  /-- WIN_SELECT. -/
  winSelect : Byte
  /-- WIN_OFFSET, always even. -/
  winOffset : Word
  deriving DecidableEq, Repr

/-- R185. -/
def HostWindow.reset : HostWindow where
  run := false
  causeEnable := 0#5
  stationLost := false
  restraintCause := false
  hostFault := false
  faultKind := .none
  winSelect := 0#8
  winOffset := 0#16

/-! ### Command Unit (chapter 9) -/

/-- The kinds of line command (R156). -/
inductive CommandKind where
  | send
  | poll
  | action
  | broadcast
  deriving DecidableEq, Repr

/-- Why the part refuses a command (R155). -/
inductive Reason where
  | badCode
  | badAddress
  | badParam
  | noStation
  | duplicateAddress
  | tableFull
  | stationFailed
  | queueFull
  | badRecord
  | recordBusy
  | noHandle
  | noBlocks
  | engaged
  | badState
  | emptyList
  deriving DecidableEq, Repr

/-- CMD_RESULT (R154): the status with its reason or its value. -/
inductive CmdResult where
  | none
  | accepted (value : BitVec 6)
  | refused (reason : Reason)
  deriving DecidableEq, Repr

/-- Where a command or an exchange goes: a Station Table entry, or the broadcast list, which stands in the
Line Arbiter's walk as pseudo-entry 16. -/
inductive Place where
  | station (entry : EntryId)
  | broadcast
  deriving DecidableEq, Repr

/-- What an ACTION's slot keeps of its parameters (R47): the action code and 0 to 6 parameter bytes. -/
structure ActionData where
  code : Byte
  params : List Byte
  deriving DecidableEq, Repr

/-- A command slot in use (R156). -/
structure Slot where
  kind : CommandKind
  tag : Word
  address : Byte
  place : Place
  handle : Option Handle
  keep : Bool
  action : Option ActionData
  /-- The attempt count, which stops at 15 (R106). -/
  attempts : BitVec 4
  cancelMark : Bool
  deriving DecidableEq, Repr

/-- The Command Unit: PARAM0 to PARAM5, CMD_RESULT, the 32 command slots and the broadcast list. The
commitment count is computed (R159). -/
structure CommandUnit where
  params : Vector Word 6
  result : CmdResult
  slots : Vector (Option Slot) 32
  broadcastList : List SlotId
  deriving DecidableEq, Repr

/-- R171. -/
def CommandUnit.reset : CommandUnit where
  params := Vector.replicate 6 0#16
  result := .none
  slots := Vector.replicate 32 none
  broadcastList := []

/-! ### Completion Queue (chapter 9) -/

/-- A completion's outcome (R162). -/
inductive Outcome where
  | delivered
  | sent
  | record
  | empty
  | duplicate
  | discarded
  | noRoom
  | refused
  | doneOk
  | timedOut
  | echoFailed
  | stationFailed
  | cancelled
  | detached
  deriving DecidableEq, Repr

/-- An entry of the Completion Queue (R161). -/
structure Completion where
  tag : Word
  kind : CommandKind
  address : Byte
  outcome : Outcome
  attempts : BitVec 4
  detail : Byte
  handle : Option Handle
  extent : Nat
  deriving DecidableEq, Repr

/-- The Completion Queue with its coalescing state (R163 to R167). -/
structure CompletionQueue where
  /-- The entries, oldest at the head. -/
  entries : List Completion
  /-- The completion-ready flag. -/
  ready : Bool
  /-- The threshold of COALESCE, 1 to 32. -/
  threshold : BitVec 6
  /-- The linger time of COALESCE, in character times. -/
  lingerTime : Byte
  /-- The linger timer, in character times remaining; 0 means stopped. -/
  lingerTimer : Byte
  deriving DecidableEq, Repr

/-- R171. -/
def CompletionQueue.reset : CompletionQueue where
  entries := []
  ready := false
  threshold := Config.resetThreshold
  lingerTime := 0#8
  lingerTimer := 0#8

/-! ### Station Table (chapters 1, 3 and 6) -/

/-- A timer that counts in beats (R62). -/
structure BeatTimer where
  /-- Beats not yet wholly passed; 0 means stopped. -/
  beats : Byte
  /-- Character times of the beat in progress already passed. -/
  passed : Fin 64
  deriving DecidableEq, Repr

/-- A stopped timer (R62). -/
def BeatTimer.stopped : BeatTimer := ⟨0#8, 0⟩

/-- A station's standing (R2). -/
inductive StationState where
  | vacant
  | ready
  | working
  | failed
  deriving DecidableEq, Repr

/-- A station's length policy. -/
inductive LengthMode where
  | any
  | exact
  deriving DecidableEq, Repr

/-- An attempt's outcome (R103). -/
inductive AttemptOutcome where
  | ok
  | noReply
  | gap
  | coding
  | short
  | check
  | wrongDest
  | wrongSource
  | badReply
  | naked
  | echo
  | aborted
  deriving DecidableEq, Repr

/-- A Station Table entry (R1). -/
structure Entry where
  state : StationState
  address : Option Byte
  paused : Bool
  syncNeeded : Bool
  txSeq : Bool
  rxExpect : Bool
  consecFail : BitVec 4
  failLimit : BitVec 4
  lengthMode : LengthMode
  inboundLimit : Nat
  pollMember : Bool
  backoffTimer : BeatTimer
  probeTimer : BeatTimer
  probeCount : Byte
  openAction : Option SlotId
  pendingList : List SlotId
  failTotal : Word
  duplicates : Byte
  refusals : Byte
  lastFault : AttemptOutcome
  deriving DecidableEq, Repr

/-- The third column of R1's table. -/
def Entry.vacant : Entry where
  state := .vacant
  address := none
  paused := false
  syncNeeded := false
  txSeq := false
  rxExpect := false
  consecFail := 0#4
  failLimit := 0#4
  lengthMode := .any
  inboundLimit := 0
  pollMember := false
  backoffTimer := .stopped
  probeTimer := .stopped
  probeCount := 0#8
  openAction := none
  pendingList := []
  failTotal := 0#16
  duplicates := 0#8
  refusals := 0#8
  lastFault := .ok

/-- The Station Table, the Lost Summary (R112), PROBE_SETUP (R52) and BACKOFF (R76). -/
structure StationTable where
  entries : Vector Entry 16
  /-- LOST_SUMMARY: bit n for entry n. -/
  lostSummary : Word
  /-- The probe interval of PROBE_SETUP, in beats. -/
  probeInterval : Byte
  /-- The probe limit of PROBE_SETUP. -/
  probeLimit : Byte
  /-- The hold backoff of BACKOFF, in beats. -/
  holdBackoff : Byte
  deriving DecidableEq, Repr

/-- R20, R61, R78, R115. -/
def StationTable.reset : StationTable where
  entries := Vector.replicate 16 Entry.vacant
  lostSummary := 0#16
  probeInterval := Config.resetProbeInterval
  probeLimit := Config.resetProbeLimit
  holdBackoff := Config.resetHoldBackoff

/-! ### Line Arbiter (chapter 4) -/

/-- Command work or round work: the alternation flag, and a SYNC's origin (R63, R22). -/
inductive Work where
  | command
  | round
  deriving DecidableEq, Repr

/-- The Line Arbiter's fields (R63) and POLL_TIME (R75). -/
structure Arbiter where
  /-- Where the next search for command work begins; 16 is the broadcast list. -/
  pointer : Fin 17
  /-- The kind of work granted last. -/
  alternation : Work
  roundInProgress : Bool
  /-- While a round is in progress, the lowest entry index it has not yet passed. -/
  roundPosition : Fin 17
  pollTimer : BeatTimer
  /-- POLL_TIME, in beats; 0 turns poll rounds off. -/
  pollPeriod : Byte
  deriving DecidableEq, Repr

/-- The fields of the Line Arbiter that a grant changes (R63, R65). -/
structure Turn where
  pointer : Fin 17
  alternation : Work
  roundPosition : Fin 17
  deriving DecidableEq, Repr

/-- What the model keeps of a close in whose happening the arbiter granted again (assumption 21). -/
structure Close where
  /-- The place of the exchange closed. -/
  place : Place
  /-- The head of the station's list left it in the close (R4, R6). -/
  headLeft : Bool
  /-- The turn before the choice, a finished round having ended (R64, R74). -/
  turn : Turn
  deriving DecidableEq, Repr

/-- R78. -/
def Arbiter.reset : Arbiter where
  pointer := 0
  alternation := .round
  roundInProgress := false
  roundPosition := 0
  pollTimer := .stopped
  pollPeriod := Config.resetPollPeriod

/-! ### Exchange Controller (chapter 2) -/

/-- The work granted (R22); a SYNC keeps which work chose its station. -/
inductive ExchangeKind where
  | send
  | poll
  | roundPoll
  | sync (origin : Work)
  | broadcast
  | action
  | probe
  deriving DecidableEq, Repr

/-- The phases an exchange stands in between happenings (R23). IDLE is the absence of an exchange, and
CLOSE is left in the happening that enters it. -/
inductive Phase where
  | guard
  | transmit
  | awaitReply
  | receiveReply
  | answerGuard
  | answer
  deriving DecidableEq, Repr

/-- The header of a reply as the decoder hands it over (R93). -/
structure Header where
  dest : Byte
  src : Byte
  ctrl : Byte
  deriving DecidableEq, Repr

/-- What the controller decides on a sound inbound DATA (R40), with the handle accepted and, for NO_ROOM,
whether it was a handle that was wanting (R144). -/
inductive Verdict where
  | duplicate
  | accepted (handle : Handle)
  | long
  | shortRecord
  | noRoom (forHandle : Bool)
  deriving DecidableEq, Repr

/-- The decision held until the exchange closes: the verdict, the inbound frame's sequence bit, which the
answer carries, and the payload length, which a POLL's completion carries (R22, R40, R144). -/
structure Decision where
  verdict : Verdict
  seq : Bool
  payload : Nat
  deriving DecidableEq, Repr

/-- The exchange in flight (R22), with what the decoder has handed over of its reply (R93). -/
structure Exchange where
  kind : ExchangeKind
  place : Place
  slot : Option SlotId
  /-- The attempt in progress, from 1; the count stops at 255. -/
  attempt : Byte
  phase : Phase
  decision : Option Decision
  outcome : Option AttemptOutcome
  /-- The reply's DEST, SRC and CTRL, once its third body byte is decoded. -/
  header : Option Header
  /-- The first payload byte handed over: the reason of a REFUSE, the result of a DONE. -/
  firstPayload : Option Byte
  deriving DecidableEq, Repr

/-! ### Line Engine (chapter 5) -/

/-- Where the transmitter takes a frame's payload from: bytes given with the frame, or the blocks of a
record, each byte read at the moment it is coded (R87). -/
inductive PayloadSource where
  | bytes (payload : List Byte)
  | record (handle : Handle) (length : Nat)
  deriving DecidableEq, Repr

/-- A frame handed to the transmitter (R25, R41). -/
structure OutFrame where
  dest : Byte
  ctrl : Byte
  payload : PayloadSource
  deriving DecidableEq, Repr

/-- The transmitter in SENDING (R86, R87): the frame, the character whose start bit has gone out, and the
encoder's state. -/
structure Transmission where
  frame : OutFrame
  /-- The character on the line. -/
  current : Byte
  /-- The character on the line is the frame's End. -/
  isEnd : Bool
  /-- The divisor at which the character on the line is sent (R81). -/
  divisor : BitVec 12
  /-- Body bytes coded so far. -/
  coded : Nat
  /-- The second character of a shifted pair, still to be sent (R82). -/
  shifted : Option Byte
  /-- The running exclusive-or, sum and number of the body bytes before the checks (R84). -/
  accXor : Byte
  accSum : Byte
  accCount : Byte
  /-- A stop request has been taken: no further character is begun (R87). -/
  stopRequested : Bool
  deriving DecidableEq, Repr

/-- A character sent whose echo has not come yet (R88). -/
structure EchoChar where
  value : Byte
  /-- Character times until its deadline: two from its start bit. -/
  deadline : Nat
  deriving DecidableEq, Repr

/-- A received frame's destination (R91). -/
inductive FrameDest where
  | reply
  | stray
  deriving DecidableEq, Repr

/-- The decoder's state inside a frame (R91 to R95). -/
structure InFrame where
  dest : FrameDest
  /-- The body count, at most 485. -/
  count : Nat
  /-- The first body bytes decoded, up to three: DEST, SRC and CTRL. -/
  head : List Byte
  /-- The held pair, older first; absent bytes are not yet held. -/
  older : Option Byte
  newer : Option Byte
  /-- The exclusive-or, sum and count accumulators. -/
  accXor : Byte
  accSum : Byte
  accCount : Byte
  shiftPending : Bool
  /-- The marks, each of which marks the frame CODING. -/
  shiftError : Bool
  charError : Bool
  oversize : Bool
  restarted : Bool
  deriving DecidableEq, Repr

/-- The receiver (R90). -/
inductive Receiver where
  | hunt
  | frame (f : InFrame)
  | echo
  | drain
  deriving DecidableEq, Repr

/-- The Line Engine. -/
structure LineEngine where
  /-- The transmitter: absent in QUIET. -/
  tx : Option Transmission
  /-- The echo list, oldest first (R88). -/
  echoList : List EchoChar
  rx : Receiver
  /-- A character's stop bit was sampled as 0 and the input has not yet been at 1 for a bit time (R80). -/
  lineHeld : Bool
  /-- The guard, reply and gap timers, in character times remaining; 0 means stopped (R97 to R99). -/
  guardTimer : BitVec 4
  replyTimer : Byte
  gapTimer : BitVec 4
  /-- RATE (R81). -/
  rate : BitVec 12
  /-- The guard and gap times of LINE_TIMES, and REPLY_TIME (R100). -/
  guardTime : BitVec 4
  gapTime : BitVec 4
  replyTimeout : Byte
  /-- The line-wide counters (R101). -/
  stray : Word
  coding : Word
  check : Word
  echo : Word
  deriving DecidableEq, Repr

/-- R102. -/
def LineEngine.reset : LineEngine where
  tx := none
  echoList := []
  rx := .hunt
  lineHeld := false
  guardTimer := 0#4
  replyTimer := 0#8
  gapTimer := 0#4
  rate := Config.resetRate
  guardTime := Config.resetGuardTime
  gapTime := Config.resetGapTime
  replyTimeout := Config.resetReplyTimeout
  stray := 0#16
  coding := 0#16
  check := 0#16
  echo := 0#16

/-! ### Record Store (chapter 7) -/

/-- A record's standing (R120). -/
inductive RecordState where
  | free
  | filling
  | ready
  | queued
  | sending
  | arriving
  | inbound
  deriving DecidableEq, Repr

/-- A record descriptor (R120). The chain holds the record's blocks in order: its first is the descriptor's
first block and its length the block count; the block link table is what the chains and the free block
list together say (R117). -/
structure Descriptor where
  state : RecordState
  length : Nat
  chain : List Block
  origin : Byte
  keep : Bool
  deriving DecidableEq, Repr

/-- The third column of R120's table. -/
def Descriptor.free : Descriptor where
  state := .free
  length := 0
  chain := []
  origin := 0#8
  keep := false

/-- The restraint state (R130). -/
inductive Restraint where
  | open
  | restrained
  deriving DecidableEq, Repr

/-- The Record Store. -/
structure RecordStore where
  descriptors : Vector Descriptor 64
  /-- The free block list, head first (R118). -/
  freeList : List Block
  /-- The bytes of the 512 blocks as a canonical list of cells: byte j of block b at address 32 × b + j. -/
  bytes : List Host.Cell
  /-- The marks. -/
  low : Nat
  high : Nat
  restraint : Restraint
  deriving DecidableEq, Repr

/-- R134; the bytes of the blocks are assumption 2. -/
def RecordStore.reset : RecordStore where
  descriptors := Vector.replicate 64 Descriptor.free
  freeList := List.finRange 512
  bytes := []
  low := Config.resetLow
  high := Config.resetHigh
  restraint := .open

/-! ### Inbound Path (chapter 8) -/

/-- Why storing stopped (R139). -/
inductive StopCause where
  | limit
  | noBlock
  | noHandle
  | restart
  deriving DecidableEq, Repr

/-- The arrival (R136). The Inbound Path is STORING while the stop cause is absent and DRAINING once it is
present; the stored count is the descriptor's length. Seen has no bound here (assumption 23). -/
structure Arrival where
  handle : Option Handle
  source : Byte
  seen : Nat
  stop : Option StopCause
  deriving DecidableEq, Repr

/-- The Inbound Path: the arrival (absent in IDLE) and the Inbound List, oldest at the head (R146). -/
structure InboundPath where
  arrival : Option Arrival
  list : List Handle
  deriving DecidableEq, Repr

/-- R151. -/
def InboundPath.reset : InboundPath where
  arrival := none
  list := []

/-! ### The whole part -/

/-- The state of the part, and the commands waiting for it. -/
structure State where
  host : HostWindow
  command : CommandUnit
  queue : CompletionQueue
  table : StationTable
  arbiter : Arbiter
  /-- The exchange in flight; absent in IDLE (R22). -/
  exchange : Option Exchange
  /-- Present when the latest happening was one of the line that closed an exchange and whose choice made a grant: what
  a FLUSH, DETACH or LINE_ABORT taken together with it, the close first, goes by (R6, R45, R57; the model's own field,
  assumption 21). -/
  lastClose : Option Close
  line : LineEngine
  store : RecordStore
  inbound : InboundPath
  /-- The RESET pin is low: every block is held in its reset state (R189). -/
  resetHeld : Bool
  /-- The word the latest read of WIN_DATA presented on D15 to D0 (the model's own field: it makes a read's
  value part of the next state). -/
  readData : Word
  /-- The commands waiting, first in, first out. -/
  pending : List Instr
  deriving DecidableEq, Repr

/-- The part right after hardware reset, the RESET pin high again (R20, R46, R78, R102, R134, R151, R171,
R185). -/
def State.reset : State where
  host := .reset
  command := .reset
  queue := .reset
  table := .reset
  arbiter := .reset
  exchange := none
  lastClose := none
  line := .reset
  store := .reset
  inbound := .reset
  resetHeld := false
  readData := 0#16
  pending := []

end Sys2Proof.Machine
end

