-- ==== Sys2Proof/Machine/Operands.lean ====
section
/-! DEFINITION. The operands of a command and the codes of the layouts: the fields of PARAM0 to PARAM5 a
command reads (R153, section 11.3), and the numbers chapter 11 gives to states, kinds and outcomes. -/

namespace Sys2Proof.Machine

/-- The low byte of a window word, bits 7 to 0. -/
def lowByte (w : Word) : Byte := w.extractLsb' 0 8

/-- The high byte of a window word, bits 15 to 8. -/
def highByte (w : Word) : Byte := w.extractLsb' 8 8

/-- PARAM0 to PARAM5 as they stand (R153). -/
def State.param (s : State) (i : Fin 6) : Word := s.command.params[i]

/-- The station address a command names: the low byte of PARAM0 (R3). -/
def State.paramAddress (s : State) : Byte := lowByte (s.param 0)

/-- The KEEP flag of SEND and BROADCAST: PARAM0 bit 8. -/
def State.paramKeep (s : State) : Bool := (s.param 0).getLsbD 8

/-- The tag of a line command: PARAM1. -/
def State.paramTag (s : State) : Word := s.param 1

/-- The handle named by SEND, BROADCAST, SEAL and FREE: the low byte of PARAM2, 0 to 255. -/
def State.paramHandle (s : State) : Byte := lowByte (s.param 2)

/-- The record length of ALLOC: the whole of PARAM2. -/
def State.paramLength (s : State) : Nat := (s.param 2).toNat

/-- The parameter count of ACTION: PARAM2 bits 15 to 8. -/
def State.paramActionCount (s : State) : Nat := (highByte (s.param 2)).toNat

/-- The six parameter byte positions of ACTION: PARAM3 to PARAM5, two to a register, low byte first (R47). -/
def State.paramActionBytes (s : State) : List Byte :=
  [lowByte (s.param 3), highByte (s.param 3), lowByte (s.param 4), highByte (s.param 4),
    lowByte (s.param 5), highByte (s.param 5)]

/-- The action code and the parameter bytes up to the count (R47). -/
def State.paramAction (s : State) : ActionData where
  code := lowByte (s.param 2)
  params := s.paramActionBytes.take s.paramActionCount

/-- The fail limit parameter of ATTACH: PARAM1 bits 7 to 0. -/
def State.paramFailLimit (s : State) : Byte := lowByte (s.param 1)

/-- The length mode of ATTACH: PARAM1 bit 8, 0 ANY and 1 EXACT. -/
def State.paramLengthMode (s : State) : LengthMode := if (s.param 1).getLsbD 8 then .exact else .any

/-- The poll member flag of ATTACH: PARAM1 bit 9. -/
def State.paramPollMember (s : State) : Bool := (s.param 1).getLsbD 9

/-- The inbound limit of ATTACH: the whole of PARAM2. -/
def State.paramInboundLimit (s : State) : Nat := (s.param 2).toNat

/-- The handle a byte names, none above 63. -/
def handleOfByte (b : Byte) : Option Handle :=
  if h : b.toNat < 64 then some ⟨b.toNat, h⟩ else none

/-- The Station Table entry a byte names, none above 15. -/
def entryOfByte (b : Byte) : Option EntryId :=
  if h : b.toNat < 16 then some ⟨b.toNat, h⟩ else none

/-! ### Codes -/

/-- A completion's kind code: the command code less 1 (section 11.1). -/
def CommandKind.code : CommandKind → BitVec 2
  | .send => 0#2
  | .poll => 1#2
  | .action => 2#2
  | .broadcast => 3#2

/-- A refusal reason's code (R155). -/
def Reason.code : Reason → BitVec 4
  | .badCode => 1#4
  | .badAddress => 2#4
  | .badParam => 3#4
  | .noStation => 4#4
  | .duplicateAddress => 5#4
  | .tableFull => 6#4
  | .stationFailed => 7#4
  | .queueFull => 8#4
  | .badRecord => 9#4
  | .recordBusy => 10#4
  | .noHandle => 11#4
  | .noBlocks => 12#4
  | .engaged => 13#4
  | .badState => 14#4
  | .emptyList => 15#4

/-- A completion outcome's code (R162). -/
def Outcome.code : Outcome → BitVec 4
  | .delivered => 1#4
  | .sent => 2#4
  | .record => 3#4
  | .empty => 4#4
  | .duplicate => 5#4
  | .discarded => 6#4
  | .noRoom => 7#4
  | .refused => 8#4
  | .doneOk => 9#4
  | .timedOut => 10#4
  | .echoFailed => 11#4
  | .stationFailed => 12#4
  | .cancelled => 13#4
  | .detached => 14#4

/-- An attempt outcome's code (R103). -/
def AttemptOutcome.code : AttemptOutcome → BitVec 4
  | .ok => 0#4
  | .noReply => 1#4
  | .gap => 2#4
  | .coding => 3#4
  | .short => 4#4
  | .check => 5#4
  | .wrongDest => 6#4
  | .wrongSource => 7#4
  | .badReply => 8#4
  | .naked => 9#4
  | .echo => 10#4
  | .aborted => 11#4

/-- The outcome is a failed attempt: any but OK and ABORTED (R103). -/
def AttemptOutcome.failed : AttemptOutcome → Bool
  | .ok | .aborted => false
  | .noReply | .gap | .coding | .short | .check | .wrongDest | .wrongSource | .badReply | .naked
  | .echo => true

/-- A station state's code (section 11.4). -/
def StationState.code : StationState → BitVec 2
  | .vacant => 0#2
  | .ready => 1#2
  | .working => 2#2
  | .failed => 3#2

/-- A length mode's code (section 11.4). -/
def LengthMode.code : LengthMode → BitVec 1
  | .any => 0#1
  | .exact => 1#1

/-- The alternation flag's code, and a SYNC origin's (section 11.4). -/
def Work.code : Work → BitVec 1
  | .command => 0#1
  | .round => 1#1

/-- An exchange kind's code (section 11.4). -/
def ExchangeKind.code : ExchangeKind → BitVec 3
  | .send => 1#3
  | .poll => 2#3
  | .roundPoll => 3#3
  | .sync _ => 4#3
  | .broadcast => 5#3
  | .action => 6#3
  | .probe => 7#3

/-- The SYNC origin bit: 0 for any kind other than SYNC (R188). -/
def ExchangeKind.originCode : ExchangeKind → BitVec 1
  | .sync origin => origin.code
  | .send | .poll | .roundPoll | .broadcast | .action | .probe => 0#1

/-- A phase's code; 0 is IDLE (section 11.4). -/
def Phase.code : Phase → BitVec 3
  | .guard => 1#3
  | .transmit => 2#3
  | .awaitReply => 3#3
  | .receiveReply => 4#3
  | .answerGuard => 5#3
  | .answer => 6#3

/-- A place's number: 0 to 15, and 16 for the broadcast list. -/
def Place.code : Place → BitVec 5
  | .station i => BitVec.ofNat 5 i.val
  | .broadcast => 16#5

/-- The receiver's code (section 11.4). -/
def Receiver.code : Receiver → BitVec 2
  | .hunt => 0#2
  | .frame _ => 1#2
  | .echo => 2#2
  | .drain => 3#2

/-- The host fault kind's code (section 11.1). -/
def FaultKind.code : FaultKind → BitVec 2
  | .none => 0#2
  | .windowRead => 1#2
  | .windowWrite => 2#2
  | .queueEmpty => 3#2

/-- The restraint field's code (section 11.1). -/
def Restraint.code : Restraint → BitVec 1
  | .open => 0#1
  | .restrained => 1#1

/-- CMD_RESULT as a word: value 13 to 8, reason 7 to 4, status 1 to 0 (section 11.1, R154). -/
def CmdResult.word : CmdResult → Word
  | .none => 0#16
  | .accepted value => 0#2 ++ value ++ 0#4 ++ 0#2 ++ 1#2
  | .refused reason => 0#2 ++ 0#6 ++ reason.code ++ 0#2 ++ 2#2

end Sys2Proof.Machine
end

