-- ==== Sys2Proof/Machine/Ops.lean ====
section
/-! DEFINITION. The named operations over the state that the meanings share: reading and writing one
entry, slot or descriptor; the Record Store's memory, its free block list and its restraint; the timers. -/

namespace Sys2Proof.Machine

/-! ### One entry, one slot, one descriptor -/

/-- The Station Table entry of index `i`. -/
def State.entry (s : State) (i : EntryId) : Entry := s.table.entries[i]

/-- Write the Station Table entry of index `i`. -/
def State.setEntry (s : State) (i : EntryId) (e : Entry) : State :=
  { s with table := { s.table with entries := s.table.entries.set i e } }

/-- The command slot of number `i`: absent when it is free. -/
def State.slot (s : State) (i : SlotId) : Option Slot := s.command.slots[i]

/-- Write the command slot of number `i`. -/
def State.setSlot (s : State) (i : SlotId) (x : Option Slot) : State :=
  { s with command := { s.command with slots := s.command.slots.set i x } }

/-- The descriptor of handle `h`. -/
def State.record (s : State) (h : Handle) : Descriptor := s.store.descriptors[h]

/-- Write the descriptor of handle `h`. -/
def State.setRecord (s : State) (h : Handle) (d : Descriptor) : State :=
  { s with store := { s.store with descriptors := s.store.descriptors.set h d } }

/-- Replace the exchange in flight. -/
def State.setExchange (s : State) (x : Option Exchange) : State := { s with exchange := x }

/-- Replace the receiver. -/
def State.setReceiver (s : State) (r : Receiver) : State := { s with line := { s.line with rx := r } }

/-- Replace PARAM0 to PARAM5, as a query does (R188). -/
def State.setParams (s : State) (v : Vector Word 6) : State :=
  { s with command := { s.command with params := v } }

/-! ### Causes and the command result -/

/-- Latch STATION_LOST and set the entry's bit in the Lost Summary (R109, R112, R113). -/
def State.latchStationLost (s : State) (i : EntryId) : State :=
  { s with
    table := { s.table with lostSummary := s.table.lostSummary ||| (1#16 <<< i.val) }
    host := { s.host with stationLost := true } }

/-- Take a host fault of a kind: latch HOST_FAULT and hold the kind (R183). -/
def State.hostFault (s : State) (kind : FaultKind) : State :=
  { s with host := { s.host with hostFault := true, faultKind := kind } }

/-- CMD_RESULT reports ACCEPTED with a value (R154). -/
def State.accept (s : State) (value : BitVec 6) : State :=
  { s with command := { s.command with result := .accepted value } }

/-- CMD_RESULT reports REFUSED with a reason, and nothing else changes (R155). -/
def State.refuse (s : State) (reason : Reason) : State :=
  { s with command := { s.command with result := .refused reason } }

/-! ### Timers -/

/-- Load a beat timer: a count of 0 leaves it stopped (R62). -/
def BeatTimer.load (beats : Byte) : BeatTimer := ⟨beats, 0⟩

/-- The timer runs (R62). -/
def BeatTimer.running (t : BeatTimer) : Bool := t.beats != 0#8

/-- One character time passes for a beat timer: 64 of them are a beat, and the last beat's end is the
timer's running out, a happening of its own (assumption 1). -/
def BeatTimer.tick (t : BeatTimer) : BeatTimer :=
  if t.beats = 0#8 then t
  else if h : t.passed.val + 1 < 64 then { t with passed := ⟨t.passed.val + 1, h⟩ }
  else if t.beats = 1#8 then t
  else ⟨t.beats - 1#8, 0⟩

/-- One character time passes for a timer that counts character times: its last one's end is the timer's
running out, a happening of its own (assumption 1). -/
def tickCount {w : Nat} (t : BitVec w) : BitVec w := if 2 ≤ t.toNat then t - 1#w else t

/-! ### The bytes of the blocks -/

/-- The byte at an address of the Record Store's memory. -/
def readByte (m : List Host.Cell) (a : Nat) : Byte :=
  match m with
  | [] => Config.unwrittenByte
  | c :: rest => if c.1 = a then c.2 else readByte rest a

/-- Write one byte and keep the canonical form: addresses strictly rise, and no cell holds the byte an
unlisted address reads as. -/
def writeByte (m : List Host.Cell) (a : Nat) (v : Byte) : List Host.Cell :=
  match m with
  | [] => if v = Config.unwrittenByte then [] else [(a, v)]
  | c :: rest =>
    if c.1 < a then c :: writeByte rest a v
    else if c.1 = a then (if v = Config.unwrittenByte then rest else (a, v) :: rest)
    else if v = Config.unwrittenByte then c :: rest
    else (a, v) :: c :: rest

/-- Set every byte of the blocks to 0 (R123): no cell of theirs is left. -/
def zeroBlocks (m : List Host.Cell) (blocks : List Block) : List Host.Cell :=
  m.filter fun c => !(blocks.map Fin.val).contains (c.1 / Config.blockBytes)

/-- The canonical form: addresses strictly rising and within the store's 16,384 bytes, and no cell equal to
what an unlisted address reads as. -/
abbrev Memory.wf (m : List Host.Cell) : Prop :=
  (m.map Prod.fst).Pairwise (· < ·) ∧
    ∀ c ∈ m, c.1 < Config.blockTotal * Config.blockBytes ∧ c.2 ≠ Config.unwrittenByte

/-- The address of byte `j` of a block. -/
def blockAddress (b : Block) (j : Nat) : Nat := b.val * Config.blockBytes + j % Config.blockBytes

/-- Where byte `k` of a record lies: byte (k modulo 32) of the block at position k ÷ 32 along its chain
(R120); absent when the chain has no such block. -/
def State.recordAddress (s : State) (h : Handle) (k : Nat) : Option Nat :=
  (s.record h).chain[k / Config.blockBytes]?.map fun b => blockAddress b k

/-- Byte `k` of a record; a byte at an offset at or beyond the length reads as 0 (R120, R126). -/
def State.recordByte (s : State) (h : Handle) (k : Nat) : Byte :=
  if k < (s.record h).length then
    match s.recordAddress h k with
    | some a => readByte s.store.bytes a
    | none => 0#8
  else 0#8

/-- Store byte `k` of a record in its block (R126, R138). -/
def State.writeRecordByte (s : State) (h : Handle) (k : Nat) (v : Byte) : State :=
  match s.recordAddress h k with
  | some a => { s with store := { s.store with bytes := writeByte s.store.bytes a v } }
  | none => s

/-! ### The free block list and restraint -/

/-- The free count (R117). -/
def State.freeCount (s : State) : Nat := s.store.freeList.length

/-- The blocks a record of a length holds: length ÷ 32, rounded up (R120). -/
def blocksFor (length : Nat) : Nat := (length + (Config.blockBytes - 1)) / Config.blockBytes

/-- Enter a restraint state; each change of state latches the RESTRAINT cause (R131). -/
def State.setRestraint (s : State) (r : Restraint) : State :=
  if s.store.restraint = r then s
  else { s with
    store := { s.store with restraint := r }
    host := { s.host with restraintCause := true } }

/-- The evaluation after a decrease of the free count (R130). -/
def State.evalDecrease (s : State) : State :=
  if s.freeCount ≤ s.store.low then s.setRestraint .restrained else s

/-- The evaluation after an increase of the free count (R130). -/
def State.evalIncrease (s : State) : State :=
  if s.store.high ≤ s.freeCount then s.setRestraint .open else s

/-- Take `n` blocks from the head of the free list in one change (R118, R119). -/
def State.takeBlocks (s : State) (n : Nat) : State :=
  State.evalDecrease { s with store := { s.store with freeList := s.store.freeList.drop n } }

/-- Return a chain to the tail of the free list in chain order, in one change; a chain of no blocks returns
nothing (R118, R130). -/
def State.returnBlocks (s : State) (chain : List Block) : State :=
  if chain = [] then s
  else State.evalIncrease { s with store := { s.store with freeList := s.store.freeList ++ chain } }

/-! ### Record descriptors -/

/-- The lowest FREE handle (R122). -/
def State.lowestFreeHandle (s : State) : Option Handle :=
  (List.finRange 64).find? fun h => (s.record h).state == .free

/-- Move a record to a state and change nothing else of it (R121). -/
def State.moveRecord (s : State) (h : Handle) (r : RecordState) : State :=
  s.setRecord h { s.record h with state := r }

/-- The record becomes FREE and its chain returns to the free list (R121). -/
def State.freeRecord (s : State) (h : Handle) : State :=
  (s.setRecord h Descriptor.free).returnBlocks (s.record h).chain

/-- The record returns to READY: its KEEP flag is cleared, its bytes and blocks are kept (R121, R129). -/
def State.readyRecord (s : State) (h : Handle) : State :=
  s.setRecord h { s.record h with state := .ready, keep := false }

/-- A SEND or BROADCAST exchange ends with its command pending: the record goes from SENDING to QUEUED
(R31, R128). -/
def State.requeueRecord (s : State) (i : Option SlotId) : State :=
  match i.bind fun i => (s.slot i).bind Slot.handle with
  | some h => if (s.record h).state = .sending then s.moveRecord h .queued else s
  | none => s

/-- What a SEND, BROADCAST, SEAL or FREE finds against the record it names: BAD_RECORD for a handle above
63 or a FREE or ARRIVING record, RECORD_BUSY for a record in a state the command cannot use (R124, R125,
R127). -/
def State.judgeRecord (s : State) (named : Byte) (usable : RecordState → Bool) : Except Reason Handle :=
  match handleOfByte named with
  | none => .error .badRecord
  | some h =>
    if (s.record h).state = .free ∨ (s.record h).state = .arriving then .error .badRecord
    else if usable (s.record h).state then .ok h
    else .error .recordBusy

/-! ### Counts -/

/-- The number of command slots in use (R159). -/
def State.slotsInUse (s : State) : Nat := s.command.slots.toList.countP Option.isSome

/-- The commitment count: command slots in use plus entries waiting in the Completion Queue (R159). -/
def State.commitment (s : State) : Nat := s.slotsInUse + s.queue.entries.length

/-- The free command slot with the lowest number (R156). -/
def State.lowestFreeSlot (s : State) : Option SlotId :=
  (List.finRange 32).find? fun i => (s.slot i).isNone

/-! ### Stations -/

/-- The non-VACANT entry that holds an address (R3). -/
def State.entryHolding (s : State) (address : Byte) : Option EntryId :=
  (List.finRange 16).find? fun i =>
    (s.entry i).state != .vacant && (s.entry i).address == some address

/-- The VACANT entry with the lowest index (R12). -/
def State.lowestVacant (s : State) : Option EntryId :=
  (List.finRange 16).find? fun i => (s.entry i).state == .vacant

/-- A station address of 1 to 62 (R3). -/
def addressInRange (a : Byte) : Bool := decide (1 ≤ a.toNat) && decide (a.toNat ≤ 62)

/-- The entry a command names by the address in PARAM0, after the address checks (R3). -/
def State.namedEntry (s : State) : Except Reason EntryId :=
  if addressInRange s.paramAddress then
    match s.entryHolding s.paramAddress with
    | some i => .ok i
    | none => .error .noStation
  else .error .badAddress

/-- The station is engaged: the exchange that holds the line is with it (R6). -/
def State.engaged (s : State) (i : EntryId) : Bool :=
  match s.exchange with
  | some x => x.place == .station i
  | none => false

/-- The engaged command: the head command whose SEND, POLL or ACTION exchange holds the line (R6). -/
def State.engagedCommand (s : State) : Option SlotId :=
  match s.exchange with
  | some x =>
    match x.kind with
    | .send | .poll | .action => x.slot
    | .roundPoll | .sync _ | .broadcast | .probe => none
  | none => none

/-- The address a frame for an exchange carries, and a reply must come from. -/
def State.addressOf (s : State) (p : Place) : Byte :=
  match p with
  | .station i => (s.entry i).address.getD 0#8
  | .broadcast => Config.broadcastAddress

/-! ### Time -/

/-- One character time passes with no happening: every running timer and every echo deadline counts it
(R62, R97 to R99, R166, R88; assumption 1), and what follows comes together with no earlier close (assumption 21).
While RESET is low no timer runs (R189). -/
def State.tick (s : State) : State :=
  if s.resetHeld then s
  else { s with
    lastClose := none
    queue := { s.queue with lingerTimer := tickCount s.queue.lingerTimer }
    table := { s.table with
      entries := s.table.entries.map fun e =>
        { e with backoffTimer := e.backoffTimer.tick, probeTimer := e.probeTimer.tick } }
    arbiter := { s.arbiter with pollTimer := s.arbiter.pollTimer.tick }
    line := { s.line with
      guardTimer := tickCount s.line.guardTimer
      replyTimer := tickCount s.line.replyTimer
      gapTimer := tickCount s.line.gapTimer
      echoList := s.line.echoList.map fun c => { c with deadline := max 1 (c.deadline - 1) } } }

/-- CLK cycles to a bit time: 16 MHz divided by (16 × divisor) is the bit rate (R81, R189). -/
def clocksPerBit (divisor : BitVec 12) : Nat := 16 * divisor.toNat

/-- CLK cycles to a character time: 11 bit times (00_scope.md, "Time"). -/
def clocksPerCharacter (divisor : BitVec 12) : Nat := 11 * clocksPerBit divisor

/-- CLK cycles to a beat: 64 character times (R62). -/
def clocksPerBeat (divisor : BitVec 12) : Nat := 64 * clocksPerCharacter divisor

end Sys2Proof.Machine
end

