-- ==== Sys2Proof/Machine/Completions.lean ====
section
/-! DEFINITION. Posting a completion (R163), what it does to the command's record (R129), the run of
cancel-marked commands behind a head that leaves (R5), and a station's loss (R107 to R109). -/

namespace Sys2Proof.Machine

/-! ### Coalescing -/

/-- The count of entries has reached the threshold (R165). -/
def CompletionQueue.atThreshold (q : CompletionQueue) : Bool :=
  decide (q.threshold.toNat ≤ q.entries.length)

/-- The coalescing state after an entry has joined the queue: at the threshold the flag is set and the linger
timer stops; below it the timer is loaded, a linger time of 0 leaving it stopped (R165, R166). -/
def CompletionQueue.evalPosting (q : CompletionQueue) : CompletionQueue :=
  if q.atThreshold then { q with ready := true, lingerTimer := 0#8 }
  else { q with lingerTimer := q.lingerTime }

/-- The coalescing state after a write of COALESCE (R165, R166). -/
def CompletionQueue.evalWrite (q : CompletionQueue) : CompletionQueue :=
  if q.atThreshold then { q with ready := true, lingerTimer := 0#8 }
  else if q.lingerTime = 0#8 then { q with lingerTimer := 0#8 }
  else q

/-- The coalescing state after a removal: an empty queue clears the flag and stops the timer (R165). -/
def CompletionQueue.evalRemoval (q : CompletionQueue) : CompletionQueue :=
  if q.entries = [] then { q with ready := false, lingerTimer := 0#8 } else q

/-! ### Posting -/

/-- The slot leaves the list it stands on: its entry's pending list, or the broadcast list (R156, R163). -/
def State.leaveList (s : State) (p : Place) (i : SlotId) : State :=
  match p with
  | .station e => s.setEntry e { s.entry e with pendingList := (s.entry e).pendingList.erase i }
  | .broadcast =>
    { s with command := { s.command with broadcastList := s.command.broadcastList.erase i } }

/-- Post one completion (R163): the entry joins the tail of the queue, the command leaves its list, its slot
is freed, and the coalescing state is evaluated. -/
def State.post (s : State) (i : SlotId) (p : Place) (c : Completion) : State :=
  let joined := { s with queue := { s.queue with entries := s.queue.entries ++ [c] } }
  let freed := (joined.leaveList p i).setSlot i none
  { freed with queue := freed.queue.evalPosting }

/-- The outcome delivers the record: DELIVERED, or SENT (R129). -/
def Outcome.delivers : Outcome → Bool
  | .delivered | .sent => true
  | .record | .empty | .duplicate | .discarded | .noRoom | .refused | .doneOk | .timedOut | .echoFailed
  | .stationFailed | .cancelled | .detached => false

/-- What the completion of a command does to the record it names: FREE when it was delivered with KEEP clear,
READY otherwise; the KEEP flag is the one its descriptor holds (R129). -/
def State.settleRecord (s : State) (h : Handle) (o : Outcome) : State :=
  if o.delivers ∧ (s.record h).keep = false then s.freeRecord h else s.readyRecord h

/-- The handle a completion carries for the record its command names: none when the record is freed (R129). -/
def State.keptHandle (s : State) (h : Handle) (o : Outcome) : Option Handle :=
  if o.delivers ∧ (s.record h).keep = false then none else some h

/-- The completion of the command in a slot (R161): `inbound` is the handle of the inbound record a POLL's
RECORD names. -/
def Slot.completion (x : Slot) (o : Outcome) (detail : Byte) (extent : Nat) (handle : Option Handle) :
    Completion where
  tag := x.tag
  kind := x.kind
  address := x.address
  outcome := o
  attempts := x.attempts
  detail := detail
  handle := handle
  extent := extent

/-- Complete one command: act on its record, then post its completion (R129, R163). A free slot has no
command to complete. -/
def State.complete (s : State) (i : SlotId) (o : Outcome) (detail : Byte) (extent : Nat)
    (inbound : Option Handle) : State :=
  match s.slot i with
  | none => s
  | some x =>
    match x.handle with
    | some h => (s.settleRecord h o).post i x.place (x.completion o detail extent (s.keptHandle h o))
    | none => s.post i x.place (x.completion o detail extent inbound)

/-- The command in the slot carries a cancel mark. -/
def State.marked (s : State) (i : SlotId) : Bool :=
  match s.slot i with
  | some x => x.cancelMark
  | none => false

/-- Complete CANCELLED, one after another in list order, every marked command at the front of the entry's
list (R5). -/
def State.cancelMarked (s : State) (e : EntryId) : State :=
  ((s.entry e).pendingList.takeWhile s.marked).foldl (fun t i => t.complete i .cancelled 0#8 0 none) s

/-- Complete the head command of a list; the marked commands then standing directly behind a station's head
complete CANCELLED at once (R5, R31). -/
def State.completeHead (s : State) (i : SlotId) (o : Outcome) (detail : Byte) (extent : Nat)
    (inbound : Option Handle) : State :=
  match s.slot i with
  | none => s
  | some x =>
    match x.place with
    | .station e => (s.complete i o detail extent inbound).cancelMarked e
    | .broadcast => s.complete i o detail extent inbound

/-- Complete every command of an entry's pending list, head first, each with the outcome, detail and extent
that `f` gives its slot (R7, R14, R18, R108). -/
def State.completeAll (s : State) (e : EntryId) (f : SlotId → Outcome × Byte × Nat) : State :=
  (s.entry e).pendingList.foldl (fun t i => t.complete i (f i).1 (f i).2.1 (f i).2.2 none) s

/-! ### Station loss -/

/-- How the transition to FAILED completes the command in slot `i` of entry `e` (R108). -/
def State.lossOutcome (s : State) (e : EntryId) (byProbeLimit : Bool) (i : SlotId) : Outcome × Byte × Nat :=
  if (s.entry e).openAction = some i then
    if byProbeLimit then (.timedOut, 0#8, (s.entry e).probeCount.toNat)
    else (.stationFailed, (s.entry e).lastFault.code.setWidth 8, (s.entry e).probeCount.toNat)
  else if s.marked i then (.cancelled, 0#8, 0)
  else (.stationFailed, (s.entry e).lastFault.code.setWidth 8, 0)

/-- The entry after the transition to FAILED: both timers stopped, no open action, no pending command, and
nothing else changed (R107). -/
def Entry.lost (e : Entry) : Entry :=
  { e with
    state := .failed
    backoffTimer := .stopped
    probeTimer := .stopped
    openAction := none
    pendingList := [] }

/-- The transition to FAILED, taken whole (R107, R108, R109): every pending command completes, the entry is
set, and STATION_LOST is latched with the entry's Lost Summary bit. -/
def State.loseStation (s : State) (e : EntryId) (byProbeLimit : Bool) : State :=
  let done := s.completeAll e (s.lossOutcome e byProbeLimit)
  (done.setEntry e (done.entry e).lost).latchStationLost e

/-- What an attempt's outcome does to the counters of the entry addressed (R10, R104). -/
def Entry.count (e : Entry) (o : AttemptOutcome) : Entry :=
  match o with
  | .ok => { e with consecFail := 0#4 }
  | .aborted => e
  | .noReply | .gap | .coding | .short | .check | .wrongDest | .wrongSource | .badReply | .naked
  | .echo =>
    { e with consecFail := satInc e.consecFail, failTotal := satInc e.failTotal, lastFault := o }

/-- Report an attempt's outcome to the Station Table (R29, R104): the counters change, and a failed attempt
that brings consec_fail to fail_limit loses the station. A broadcast reports to no station. -/
def State.report (s : State) (p : Place) (o : AttemptOutcome) : State :=
  match p with
  | .broadcast => s
  | .station e =>
    let counted := s.setEntry e ((s.entry e).count o)
    if o.failed ∧ (counted.entry e).consecFail = (counted.entry e).failLimit then
      counted.loseStation e false
    else counted

end Sys2Proof.Machine
end

