-- ==== Sys2Proof/Machine/Frames.lean ====
section
/-! DEFINITION. Drop-line coding: characters (R79, R80), frames and their check bytes (R82 to R84, section
11.2), the transmitter's encoder (R87) and the decoder's running state (R91 to R95). -/

namespace Sys2Proof.Machine

/-! ### Characters -/

/-- The even parity bit of a byte: with it, the number of 1s among the nine bits is even (R79). -/
def evenParity (v : Byte) : Bool :=
  (List.range 8).foldl (fun p k => p ^^ v.getLsbD k) false

/-- The eleven bits of a character on the line, first sent first: start bit 0, the data bits least significant
first, even parity, stop bit 1 (R79). -/
def characterBits (v : Byte) : List Bool :=
  false :: ((List.range 8).map fun k => v.getLsbD k) ++ [evenParity v, true]

/-- A received character is good: its parity is even and its stop bit was 1 (R80). -/
def goodCharacter (v : Byte) (parity stop : Bool) : Bool := (parity == evenParity v) && stop

/-- The character received from eleven bit samples, as its data bits, parity bit and stop bit: none when the
start bit was found to be 1 at its middle (R80). -/
def sampleCharacter (bits : List Bool) : Option (Byte × Bool × Bool) :=
  match bits with
  | [false, b0, b1, b2, b3, b4, b5, b6, b7, parity, stop] =>
    some (bit b7 ++ bit b6 ++ bit b5 ++ bit b4 ++ bit b3 ++ bit b2 ++ bit b1 ++ bit b0, parity, stop)
  | _ => none

/-- A byte value reserved on the wire: Marker, End or Shift (R82). -/
def reserved (v : Byte) : Bool := v == Config.marker || v == Config.endMark || v == Config.shift

/-- How a body byte goes out: as itself, or as Shift and the byte exclusive-ored with 0x0F (R82). -/
def codeByte (v : Byte) : List Byte :=
  if reserved v then [Config.shift, v ^^^ Config.shiftMask] else [v]

/-- The exclusive-or check of the body bytes before the checks (R84). -/
def checkXor (body : List Byte) : Byte := body.foldl (· ^^^ ·) 0#8

/-- The sum check of the body bytes before the checks: their sum plus their number, modulo 256 (R84). -/
def checkSum (body : List Byte) : Byte := body.foldl (· + ·) 0#8 + BitVec.ofNat 8 body.length

/-- The whole run of characters of a frame: Marker, each body byte coded, the two check bytes coded, End
(R83, section 11.2). -/
def frameCharacters (body : List Byte) : List Byte :=
  [Config.marker] ++ (body ++ [checkXor body, checkSum body]).flatMap codeByte ++ [Config.endMark]

/-! ### Kinds -/

/-- The twelve kinds of frame (R85). -/
inductive FrameKind where
  | data
  | poll
  | ack
  | nak
  | hold
  | refuse
  | empty
  | action
  | working
  | probe
  | done
  | sync
  deriving DecidableEq, Repr

/-- A kind's code (R85). -/
def FrameKind.code : FrameKind → BitVec 4
  | .data => 1#4
  | .poll => 2#4
  | .ack => 3#4
  | .nak => 4#4
  | .hold => 5#4
  | .refuse => 6#4
  | .empty => 7#4
  | .action => 8#4
  | .working => 9#4
  | .probe => 10#4
  | .done => 11#4
  | .sync => 12#4

/-- The kind of a code; 0, 13, 14 and 15 are invalid (R85). -/
def kindOfCode (c : BitVec 4) : Option FrameKind :=
  match c.toNat with
  | 1 => some .data
  | 2 => some .poll
  | 3 => some .ack
  | 4 => some .nak
  | 5 => some .hold
  | 6 => some .refuse
  | 7 => some .empty
  | 8 => some .action
  | 9 => some .working
  | 10 => some .probe
  | 11 => some .done
  | 12 => some .sync
  | _ => none

/-- The CTRL byte of a frame the controller sends: high bits 0, the sequence bit, the kind code (section 11.2). -/
def ctrlByte (kind : FrameKind) (seq : Bool) : Byte := 0#3 ++ bit seq ++ kind.code

/-- The high bits of a CTRL byte. -/
def ctrlHigh (c : Byte) : BitVec 3 := c.extractLsb' 5 3

/-- The sequence bit of a CTRL byte. -/
def ctrlSeq (c : Byte) : Bool := c.getLsbD 4

/-- The kind of a CTRL byte. -/
def ctrlKind (c : Byte) : Option FrameKind := kindOfCode (c.extractLsb' 0 4)

/-- The payload lengths a kind allows a reply (R28). -/
def FrameKind.payloadFits (k : FrameKind) (n : Nat) : Bool :=
  match k with
  | .ack | .nak | .hold | .empty | .working => n == 0
  | .refuse | .done => n == 1
  | .data => decide (n ≤ Config.maxPayload)
  | .poll | .probe | .sync => n == 0
  | .action => decide (1 ≤ n) && decide (n ≤ 7)

/-! ### The encoder -/

/-- The payload length of a frame handed to the transmitter. -/
def PayloadSource.length : PayloadSource → Nat
  | .bytes payload => payload.length
  | .record _ length => length

/-- Payload byte `k`, read at the moment it is coded (R87). -/
def State.payloadByte (s : State) (p : PayloadSource) (k : Nat) : Byte :=
  match p with
  | .bytes payload => payload.getD k 0#8
  | .record h _ => s.recordByte h k

/-- Body byte `n` of the frame being sent: DEST, SRC 0, CTRL, the payload, then CKX and CKS from the encoder's
running values (R83, R84, R87). -/
def State.bodyByte (s : State) (t : Transmission) (n : Nat) : Byte :=
  if n = 0 then t.frame.dest
  else if n = 1 then 0#8
  else if n = 2 then t.frame.ctrl
  else if n < 3 + t.frame.payload.length then s.payloadByte t.frame.payload (n - 3)
  else if n = 3 + t.frame.payload.length then t.accXor
  else t.accSum + t.accCount

/-- The transmission once the next character has been coded and its start bit has gone out (R87). -/
def State.nextCharacter (s : State) (t : Transmission) : Transmission :=
  match t.shifted with
  | some v => { t with current := v, isEnd := false, shifted := none, divisor := s.line.rate }
  | none =>
    if t.coded < 3 + t.frame.payload.length + 2 then
      let v := s.bodyByte t t.coded
      let checked := t.coded < 3 + t.frame.payload.length
      { t with
        current := if reserved v then Config.shift else v
        isEnd := false
        shifted := if reserved v then some (v ^^^ Config.shiftMask) else none
        coded := t.coded + 1
        accXor := if checked then t.accXor ^^^ v else t.accXor
        accSum := if checked then t.accSum + v else t.accSum
        accCount := if checked then t.accCount + 1#8 else t.accCount
        divisor := s.line.rate }
    else { t with current := Config.endMark, isEnd := true, divisor := s.line.rate }

/-- The transmission as its Marker's start bit goes out (R86, R87). -/
def OutFrame.begin (f : OutFrame) (divisor : BitVec 12) : Transmission where
  frame := f
  current := Config.marker
  isEnd := false
  divisor := divisor
  coded := 0
  shifted := none
  accXor := 0#8
  accSum := 0#8
  accCount := 0#8
  stopRequested := false

/-- A character joins the tail of the echo list when its start bit goes out, its deadline one character time
after its stop bit has ended (R88). -/
def echoOf (v : Byte) : EchoChar := ⟨v, 2⟩

/-- Hand the transmitter a frame: it enters SENDING with the Marker, whose echo is awaited, and the receiver
enters ECHO (R86, R88, R90). -/
def State.startSending (s : State) (f : OutFrame) : State :=
  { s with line := { s.line with
      tx := some (f.begin s.line.rate)
      echoList := [echoOf Config.marker]
      rx := .echo } }

/-- A stop request: the character on the line is sent to its end and no further one is begun; in QUIET it
changes nothing (R87). -/
def State.stopRequest (s : State) : State :=
  { s with line := { s.line with tx := s.line.tx.map fun t => { t with stopRequested := true } } }

/-- LINE_ABORT and CONTROLLER_RESET stop a transmission under way: the echo list is emptied and the receiver
leaves ECHO for DRAIN, with no ECHO fault counted or reported (R89). -/
def State.cutTransmission (s : State) : State :=
  match s.line.rx with
  | .echo =>
    let stopped := s.stopRequest
    { stopped with line := { stopped.line with echoList := [], rx := .drain } }
  | .hunt | .frame _ | .drain => s

/-! ### The decoder -/

/-- A frame as a Marker opens it (R91). -/
def InFrame.begin (dest : FrameDest) (restarted : Bool) : InFrame where
  dest := dest
  count := 0
  head := []
  older := none
  newer := none
  accXor := 0#8
  accSum := 0#8
  accCount := 0#8
  shiftPending := false
  shiftError := false
  charError := false
  oversize := false
  restarted := restarted

/-- The frame is marked CODING (R94). -/
def InFrame.codingMark (f : InFrame) : Bool := f.shiftError || f.charError || f.oversize || f.restarted

/-- The frame is SHORT: not marked CODING, its body count below 5 (R94). -/
def InFrame.shortMark (f : InFrame) : Bool := !f.codingMark && decide (f.count < 5)

/-- The held pair equals the accumulated checks (R84, R94). -/
def InFrame.passesCheck (f : InFrame) : Bool :=
  f.older == some f.accXor && f.newer == some (f.accSum + f.accCount)

/-- The frame's check fails: judged when it is neither marked CODING nor SHORT (R94). -/
def InFrame.checkFails (f : InFrame) : Bool := !f.codingMark && !f.shortMark && !f.passesCheck

/-- The frame once a body byte has been held: the older held byte of a full pair is released into the
accumulators (R93). -/
def InFrame.hold (f : InFrame) (v : Byte) : InFrame :=
  match f.older, f.newer with
  | some o, some n =>
    { f with
      count := f.count + 1
      head := if f.count < 3 then f.head ++ [v] else f.head
      older := some n
      newer := some v
      accXor := f.accXor ^^^ o
      accSum := f.accSum + o
      accCount := f.accCount + 1#8 }
  | none, some n =>
    { f with
      count := f.count + 1
      head := if f.count < 3 then f.head ++ [v] else f.head
      older := some n
      newer := some v }
  | o, none =>
    { f with
      count := f.count + 1
      head := if f.count < 3 then f.head ++ [v] else f.head
      older := o
      newer := some v }

/-- The payload byte that decoding the next body byte releases: the older held byte, when it is the fourth
body byte or a later one (R93). -/
def InFrame.releases (f : InFrame) : Option Byte :=
  if 5 ≤ f.count ∧ f.newer.isSome then f.older else none

/-- DEST, SRC and CTRL, once three body bytes are decoded (R93). -/
def InFrame.header (f : InFrame) : Option Header :=
  match f.head with
  | [dest, src, ctrl] => some ⟨dest, src, ctrl⟩
  | _ => none

/-- The CODING counter increases by 1 (R101). -/
def State.countCoding (s : State) : State :=
  { s with line := { s.line with coding := satInc s.line.coding } }

end Sys2Proof.Machine
end

