-- ==== Sys2Proof/Machine/Inbound.lean ====
section
/-! DEFINITION. The arrival from its beginning to its end (R136 to R145) and the decision on an inbound DATA
(R40, R142, R144). -/

namespace Sys2Proof.Machine

/-- Replace the arrival. -/
def State.setArrival (s : State) (a : Option Arrival) : State :=
  { s with inbound := { s.inbound with arrival := a } }

/-- The stored count of the arrival: its descriptor's length; 0 when it has no handle (R136). -/
def State.arrivalStored (s : State) (a : Arrival) : Nat :=
  match a.handle with
  | some h => (s.record h).length
  | none => 0

/-- An arrival begins: the lowest FREE handle becomes ARRIVING and the Inbound Path enters STORING, or with no
handle FREE it enters DRAINING for NO_HANDLE (R122, R137). -/
def State.beginArrival (s : State) (source : Byte) : State :=
  match s.lowestFreeHandle with
  | some h =>
    (s.setRecord h { state := .arriving, length := 0, chain := [], origin := source, keep := false }).setArrival
      (some { handle := some h, source := source, seen := 0, stop := none })
  | none => s.setArrival (some { handle := none, source := source, seen := 0, stop := some .noHandle })

/-- A payload byte is counted and storing stops for a cause (R139). -/
def State.stopStoring (s : State) (a : Arrival) (c : StopCause) : State :=
  s.setArrival (some { a with seen := a.seen + 1, stop := some c })

/-- Append the head block of the free list to the arrival's chain: one change of the free count (R119, R138). -/
def State.appendBlock (s : State) (h : Handle) (b : Block) : State :=
  (s.setRecord h { s.record h with chain := (s.record h).chain ++ [b] }).takeBlocks 1

/-- Write the arrival's next byte in its chain and count it stored and seen (R138, step 3). -/
def State.storeArrivalByte (s : State) (a : Arrival) (h : Handle) (v : Byte) : State :=
  let written := s.writeRecordByte h a.seen v
  (written.setRecord h { written.record h with length := (written.record h).length + 1 }).setArrival
    (some { a with seen := a.seen + 1 })

/-- A payload byte is handed to the Inbound Path: stored while STORING, unless it passes the inbound limit or
needs a block that is not there, and only counted while DRAINING (R138, R139, R140). The model's choice (assumption
23): seen is a number without bound, which a reply restarted often enough takes past R136's 480. -/
def State.takePayloadByte (s : State) (limit : Nat) (v : Byte) : State :=
  match s.inbound.arrival with
  | none => s
  | some a =>
    match a.stop, a.handle with
    | none, some h =>
      if limit ≤ a.seen then s.stopStoring a .limit
      else if a.seen % Config.blockBytes = 0 then
        match s.store.freeList with
        | [] => s.stopStoring a .noBlock
        | b :: _ => (s.appendBlock h b).storeArrivalByte a h v
      else s.storeArrivalByte a h v
    | _, _ => s.setArrival (some { a with seen := a.seen + 1 })

/-- A restart of the reply: a STORING arrival enters DRAINING for RESTART, a DRAINING one keeps its stop cause
(R141). -/
def State.restartArrival (s : State) : State :=
  match s.inbound.arrival with
  | some a => if a.stop = none then s.setArrival (some { a with stop := some .restart }) else s
  | none => s

/-- The arrival ends without an accepted record: its descriptor becomes FREE, its chain joins the free list in
one change, and the Inbound Path returns to IDLE (R143, R144, R45). -/
def State.discardArrival (s : State) : State :=
  match s.inbound.arrival with
  | some a =>
    match a.handle with
    | some h => (s.freeRecord h).setArrival none
    | none => s.setArrival none
  | none => s

/-- The record of the arrival becomes INBOUND with its length equal to P, and its handle joins the tail of the
Inbound List (R144, R146). -/
def State.acceptArrival (s : State) (h : Handle) (payload : Nat) : State :=
  let d := s.record h
  let kept := s.setRecord h { d with state := .inbound, length := payload }
  { kept with inbound := { arrival := none, list := kept.inbound.list ++ [h] } }

/-- The decision on a sound DATA that is no duplicate (R142): P is the payload length, the entry is the
polled station's, and `a` is the arrival. -/
def decideArrival (e : Entry) (a : Option Arrival) (payload : Nat) : Verdict :=
  if e.inboundLimit < payload then .long
  else if e.lengthMode = .exact ∧ payload < e.inboundLimit then .shortRecord
  else
    match a with
    | some { handle := some h, stop := none, .. } => .accepted h
    | some { stop := some .noBlock, .. } => .noRoom false
    | some { handle := some _, stop := some _, .. } => .noRoom false
    | some { handle := none, .. } => .noRoom true
    | none => .noRoom true

/-- The verdict ends the station's duty to keep the record, so rx_expect flips (R33). -/
def Verdict.flips : Verdict → Bool
  | .accepted _ | .long | .shortRecord => true
  | .duplicate | .noRoom _ => false

/-- The answer owed for a verdict: its kind, and the reason byte of a REFUSE (R40, R41). -/
def Verdict.answer : Verdict → FrameKind × List Byte
  | .duplicate | .accepted _ => (.ack, [])
  | .long => (.refuse, [2#8])
  | .shortRecord => (.refuse, [3#8])
  | .noRoom _ => (.hold, [])

/-- The verdict is answered REFUSE (R40). -/
def Verdict.refuses : Verdict → Bool
  | .long | .shortRecord => true
  | .duplicate | .accepted _ | .noRoom _ => false

/-- The outcome, detail and handle of a POLL's completion for a verdict (R144). -/
def Verdict.completion : Verdict → Outcome × Byte × Option Handle
  | .duplicate => (.duplicate, 0#8, none)
  | .accepted h => (.record, 0#8, some h)
  | .long => (.discarded, 2#8, none)
  | .shortRecord => (.discarded, 3#8, none)
  | .noRoom forHandle => (.noRoom, if forHandle then 1#8 else 2#8, none)

/-- What the Inbound Path does for a verdict (R144). -/
def State.actOnVerdict (s : State) (v : Verdict) (payload : Nat) : State :=
  match v with
  | .accepted h => s.acceptArrival h payload
  | .duplicate | .long | .shortRecord | .noRoom _ => s.discardArrival

/-- What a verdict does to the station's entry (R33, R40): rx_expect flips where the verdict ends the station's
duty, and a duplicate is counted. -/
def Entry.afterVerdict (e : Entry) (v : Verdict) : Entry :=
  { e with
    rxExpect := if v.flips then !e.rxExpect else e.rxExpect
    duplicates := if v = .duplicate then satInc e.duplicates else e.duplicates }

end Sys2Proof.Machine
end

