-- ==== Sys2Proof/Machine/Exchanges.lean ====
section
/-! DEFINITION. The exchange in flight: entering TRANSMIT and ANSWER (R25, R41), the end of an attempt and the
choice between a retry and the close (R30, R105), the evaluation of a reply (R28) and its effects (R35 to
R38, R49, R54, R55), and the abort of the exchange (R44, R45). -/

namespace Sys2Proof.Machine

/-! ### Sending -/

/-- The frame of an exchange's attempt (R25, R48, R53). -/
def State.attemptFrame (s : State) (x : Exchange) : OutFrame :=
  let slot := x.slot.bind s.slot
  let seq := match x.place with
    | .station e => (s.entry e).txSeq
    | .broadcast => false
  let recordSource : PayloadSource :=
    match slot.bind Slot.handle with
    | some h => .record h (s.record h).length
    | none => .bytes []
  let actionSource : PayloadSource :=
    match slot.bind Slot.action with
    | some a => .bytes (a.code :: a.params)
    | none => .bytes []
  let dest := s.addressOf x.place
  match x.kind with
  | .send => ⟨dest, ctrlByte .data seq, recordSource⟩
  | .poll | .roundPoll => ⟨dest, ctrlByte .poll false, .bytes []⟩
  | .sync _ => ⟨dest, ctrlByte .sync false, .bytes []⟩
  | .broadcast => ⟨dest, ctrlByte .data false, recordSource⟩
  | .action => ⟨dest, ctrlByte .action seq, actionSource⟩
  | .probe => ⟨dest, ctrlByte .probe false, .bytes []⟩

/-- The attempt count of the slot served rises by 1, stopping at 15 (R25, R106). -/
def State.countAttempt (s : State) (i : Option SlotId) : State :=
  match i with
  | some i =>
    match s.slot i with
    | some x => s.setSlot i (some { x with attempts := satInc x.attempts })
    | none => s
  | none => s

/-- GUARD is left for TRANSMIT: the attempt's frame is handed to the transmitter (R25, R86). -/
def State.enterTransmit (s : State) (x : Exchange) : State :=
  let counted := s.countAttempt x.slot
  (counted.startSending (counted.attemptFrame x)).setExchange
    (some { x with phase := .transmit, header := none, firstPayload := none })

/-- The answer frame for a decision (R41). -/
def State.answerFrame (s : State) (x : Exchange) (d : Decision) : OutFrame :=
  ⟨s.addressOf x.place, ctrlByte d.verdict.answer.1 d.seq, .bytes d.verdict.answer.2⟩

/-- A REFUSE answer handed to the Line Engine counts one refusal (R10, R41). -/
def State.countRefusal (s : State) (p : Place) (v : Verdict) : State :=
  match p with
  | .station e =>
    if v.refuses then s.setEntry e { s.entry e with refusals := satInc (s.entry e).refusals } else s
  | .broadcast => s

/-- ANSWER_GUARD is left for ANSWER: the decided answer is handed to the transmitter (R41, R86). -/
def State.enterAnswer (s : State) (x : Exchange) : State :=
  match x.decision with
  | some d =>
    ((s.countRefusal x.place d.verdict).startSending (s.answerFrame x d)).setExchange
      (some { x with phase := .answer })
  | none => s

/-- The line is quiet: the guard timer is stopped, the receiver is in HUNT and the transmitter QUIET (R97). -/
def State.lineQuiet (s : State) : Bool :=
  s.line.guardTimer == 0#4 && s.line.rx == .hunt && s.line.tx.isNone

/-- The exchange waits for its reply or receives it (R23). -/
def State.awaitsReply (s : State) : Bool :=
  match s.exchange with
  | some x => x.phase == .awaitReply || x.phase == .receiveReply
  | none => false

/-- A quiet line is still to be reported: the line is quiet, and an exchange waits in GUARD, or in ANSWER_GUARD with its
decision (R97). -/
def State.reportDue (s : State) : Bool :=
  !s.resetHeld && s.lineQuiet &&
    match s.exchange with
    | some x => x.phase == .guard || (x.phase == .answerGuard && x.decision.isSome)
    | none => false

/-- A quiet line is reported to an exchange waiting in GUARD or ANSWER_GUARD (R97). -/
def State.reportQuiet (s : State) : State :=
  if s.lineQuiet then
    match s.exchange with
    | some x =>
      match x.phase with
      | .guard => s.enterTransmit x
      | .answerGuard => s.enterAnswer x
      | .transmit | .awaitReply | .receiveReply | .answer => s
    | none => s
  else s

/-! ### The end of an attempt -/

/-- The exchange ends with its command still pending: a SEND or BROADCAST record goes back to QUEUED and the
Exchange Controller to IDLE (R31, R128). -/
def State.closePending (s : State) (x : Exchange) : State :=
  (s.requeueRecord x.slot).setExchange none

/-- The exchange ends having finished its command, whose completion is posted (R31). -/
def State.closeDone (s : State) (x : Exchange) (o : Outcome) (detail : Byte) (extent : Nat)
    (inbound : Option Handle) : State :=
  match x.slot with
  | some i => (s.completeHead i o detail extent inbound).setExchange none
  | none => s.setExchange none

/-- The retry: the attempt number rises, stopping at 255, and the exchange returns to GUARD with the failed
outcome kept (R30 case 6, R105). -/
def State.retry (s : State) (x : Exchange) (o : AttemptOutcome) : State :=
  s.setExchange (some { x with
    attempt := satInc x.attempt, phase := .guard, outcome := some o, decision := none })

/-- The exchange is a round visit, which has one attempt: a ROUND_POLL, or a SYNC with origin ROUND (R30
case 3). -/
def ExchangeKind.isRound : ExchangeKind → Bool
  | .roundPoll | .sync .round => true
  | .send | .poll | .sync .command | .broadcast | .action | .probe => false

/-- The place addressed is a station in FAILED (R30 case 1). -/
def State.placeFailed (s : State) (p : Place) : Bool :=
  match p with
  | .station e => (s.entry e).state == .failed
  | .broadcast => false

/-- The slot served has made three attempts or more (R30 case 4, R114). -/
def State.broadcastSpent (s : State) (i : Option SlotId) : Bool :=
  match i.bind s.slot with
  | some x => decide (3 ≤ x.attempts.toNat)
  | none => false

/-- The end of a failed attempt: its outcome is reported, and the first case of R30 that holds is applied. -/
def State.failAttempt (s : State) (x : Exchange) (o : AttemptOutcome) : State :=
  let told := s.report x.place o
  if told.placeFailed x.place then told.setExchange none
  else if x.kind.isRound then told.setExchange none
  else if x.kind = .broadcast ∧ told.broadcastSpent x.slot then told.closeDone x .echoFailed 0#8 0 none
  else if told.host.run = false then told.closePending x
  else told.retry x o

/-- An answered POLL completes with its decision; a ROUND_POLL posts nothing (R41, R42, R144). The model's choice
(assumption 24): a RECORD names the handle accepted even where a RELEASE has freed it since the decision. -/
def State.completeDecision (s : State) (x : Exchange) : State :=
  match x.decision, x.slot with
  | some d, some i =>
    s.completeHead i d.verdict.completion.1 d.verdict.completion.2.1 d.payload d.verdict.completion.2.2
  | _, _ => s

/-- An ECHO fault in ANSWER: the decision stands, the POLL completes, then the failure is reported and the
exchange closes (R42). -/
def State.failAnswer (s : State) (x : Exchange) : State :=
  ((s.completeDecision x).report x.place .echo).setExchange none

/-! ### The echo -/

/-- The echo of a frame's End has been received (R26, R39, R41): the reply is awaited, or the exchange
closes. -/
def State.echoComplete (s : State) : State :=
  match s.exchange with
  | some x =>
    match x.phase with
    | .transmit =>
      if x.kind = .broadcast then s.closeDone x .sent 0#8 0 none
      else { s with
        exchange := some { x with phase := .awaitReply }
        line := { s.line with replyTimer := s.line.replyTimeout } }
    | .answer => (s.completeDecision x).setExchange none
    | .guard | .awaitReply | .receiveReply | .answerGuard => s
  | none => s

/-- An ECHO fault is reported to the Exchange Controller (R26, R42, R89 step 5). -/
def State.echoFailed (s : State) : State :=
  match s.exchange with
  | some x =>
    match x.phase with
    | .transmit => s.failAttempt x .echo
    | .answer => s.failAnswer x
    | .guard | .awaitReply | .receiveReply | .answerGuard => s
  | none => s

/-- An ECHO fault (R89): it is counted, the echo list is emptied, a stop request is made, the receiver enters
DRAIN, and the fault is reported. -/
def State.echoFault (s : State) : State :=
  let stopped := s.stopRequest
  State.echoFailed { stopped with line := { stopped.line with
    echo := satInc stopped.line.echo, echoList := [], rx := .drain } }

/-! ### The reply -/

/-- The kinds of reply an exchange allows (R35, R36, R38, R49, R54). -/
def ExchangeKind.allows (k : ExchangeKind) (f : FrameKind) : Bool :=
  match k with
  | .send => [FrameKind.ack, .refuse, .hold, .nak].contains f
  | .poll | .roundPoll => [FrameKind.data, .empty].contains f
  | .sync _ => f == .ack
  | .broadcast => false
  | .action => [FrameKind.ack, .working, .refuse, .hold, .nak].contains f
  | .probe => [FrameKind.working, .done, .nak].contains f

/-- The exchange examines the sequence bit of a reply of a kind against the frame answered: ACK, REFUSE and
WORKING in reply to a SEND or an ACTION (R32, R35, R49). An inbound DATA's bit is the decision's (R40). -/
def ExchangeKind.examinesSeq (k : ExchangeKind) (f : FrameKind) : Bool :=
  match k with
  | .send | .action => [FrameKind.ack, .refuse, .working].contains f
  | .poll | .roundPoll | .sync _ | .broadcast | .probe => false

/-- The outcome of a reply closed by its End, in the order of R28, with its kind when it is OK or NAKED. -/
def State.judgeReply (s : State) (x : Exchange) (f : InFrame) : AttemptOutcome × Option FrameKind :=
  if f.codingMark then (.coding, none)
  else if f.shortMark then (.short, none)
  else if f.checkFails then (.check, none)
  else
    match x.header with
    | none => (.short, none)
    | some h =>
      if h.dest ≠ 0#8 then (.wrongDest, none)
      else if h.src ≠ s.addressOf x.place then (.wrongSource, none)
      else if ctrlHigh h.ctrl ≠ 0#3 then (.badReply, none)
      else
        match ctrlKind h.ctrl with
        | none => (.badReply, none)
        | some k =>
          if !x.kind.allows k then (.badReply, none)
          else if !k.payloadFits (f.count - 5) then (.badReply, none)
          else if x.kind.examinesSeq k ∧ ctrlSeq h.ctrl ≠ ctrlSeq (s.attemptFrame x).ctrl then (.badReply, none)
          else if k = .nak then (.naked, some .nak)
          else (.ok, some k)

/-- The sequence bits after a reply evaluated OK to a SEND or an ACTION: tx_seq flips on ACK, REFUSE and WORKING
(R32). -/
def Entry.flipTx (e : Entry) : Entry := { e with txSeq := !e.txSeq }

/-- A HOLD reply loads the backoff timer with the hold backoff (R37, R76). -/
def State.loadBackoff (s : State) (e : EntryId) : State :=
  s.setEntry e { s.entry e with backoffTimer := .load s.table.holdBackoff }

/-- A WORKING reply to an ACTION: the station becomes WORKING with the slot as its open action, tx_seq flips,
the probe count is 0 and the probe timer is loaded (R50). -/
def State.openAction (s : State) (e : EntryId) (i : Option SlotId) : State :=
  s.setEntry e { s.entry e with
    state := .working
    txSeq := !(s.entry e).txSeq
    openAction := i
    probeCount := 0#8
    probeTimer := .load s.table.probeInterval }

/-- A WORKING reply to a PROBE (R55): the count rises; below the limit the timer is reloaded, at the limit the
action is given up and the station lost. -/
def State.probeWorking (s : State) (e : EntryId) : State :=
  let counted := s.setEntry e { s.entry e with probeCount := satInc (s.entry e).probeCount }
  if (counted.entry e).probeCount.toNat < counted.table.probeLimit.toNat then
    counted.setEntry e { counted.entry e with probeTimer := .load counted.table.probeInterval }
  else counted.loseStation e true

/-- A DONE reply to a PROBE ends the open action (R54): it completes DONE_OK with the result and the probe
count, and the station is READY with its probe timer at 0. -/
def State.probeDone (s : State) (e : EntryId) (result : Byte) : State :=
  let completed :=
    match (s.entry e).openAction with
    | some i => s.completeHead i .doneOk result (s.entry e).probeCount.toNat none
    | none => s
  completed.setEntry e { completed.entry e with
    state := .ready, openAction := none, probeTimer := .stopped }

/-- An ACK to a SYNC sets both sequence bits to 0 and clears sync_needed (R36). -/
def State.synced (s : State) (e : EntryId) : State :=
  s.setEntry e { s.entry e with txSeq := false, rxExpect := false, syncNeeded := false }

/-- A sound inbound DATA is decided (R40, R142): its OK is reported, the decision is held for the answer, and
the Inbound Path acts on it; the exchange enters ANSWER_GUARD. -/
def State.decideData (s : State) (x : Exchange) (e : EntryId) (h : Header) (payload : Nat) : State :=
  let told := s.report x.place .ok
  let verdict :=
    if ctrlSeq h.ctrl = (told.entry e).rxExpect then
      decideArrival (told.entry e) told.inbound.arrival payload
    else .duplicate
  let flipped := told.setEntry e ((told.entry e).afterVerdict verdict)
  (flipped.actOnVerdict verdict payload).setExchange (some { x with
    phase := .answerGuard
    outcome := some .ok
    decision := some ⟨verdict, ctrlSeq h.ctrl, payload⟩ })

/-- The effects of a reply evaluated OK, by the exchange's kind and the reply's (R35 to R38, R49, R54, R55). -/
def State.replyOk (s : State) (x : Exchange) (k : FrameKind) (h : Header) (payload : Nat) : State :=
  match x.place with
  | .broadcast => s.setExchange none
  | .station e =>
    let told := s.report x.place .ok
    let byte := x.firstPayload.getD 0#8
    match x.kind, k with
    | .send, .ack => (told.setEntry e (told.entry e).flipTx).closeDone x .delivered 0#8 0 none
    | .send, .refuse => (told.setEntry e (told.entry e).flipTx).closeDone x .refused byte 0 none
    | .action, .ack => (told.setEntry e (told.entry e).flipTx).closeDone x .doneOk 0#8 0 none
    | .action, .refuse => (told.setEntry e (told.entry e).flipTx).closeDone x .refused byte 0 none
    | .action, .working => (told.openAction e x.slot).setExchange none
    | .send, .hold => (told.loadBackoff e).closePending x
    | .action, .hold => (told.loadBackoff e).closePending x
    | .sync _, _ => (told.synced e).setExchange none
    | .poll, .empty => told.closeDone x .empty 0#8 0 none
    | .roundPoll, .empty => told.setExchange none
    | .poll, .data => s.decideData x e h payload
    | .roundPoll, .data => s.decideData x e h payload
    | .probe, .working => (told.probeWorking e).setExchange none
    | .probe, .done => (told.probeDone e byte).setExchange none
    | _, _ => told.setExchange none

/-- A reply closed by its End: it is judged, a faulted close discards the arrival before the failure is
reported, and an OK reply has its effects (R28, R40, R143). -/
def State.closeReply (s : State) (f : InFrame) : State :=
  match s.exchange with
  | some x =>
    match s.judgeReply x f with
    | (.ok, some k) => s.replyOk x k (x.header.getD ⟨0#8, 0#8, 0#8⟩) (f.count - 5)
    | (o, _) => s.discardArrival.failAttempt x o
  | none => s

/-- The gap timeout closes the reply with the outcome GAP (R28, R99, R143). -/
def State.gapReply (s : State) : State :=
  match s.exchange with
  | some x => s.discardArrival.failAttempt x .gap
  | none => s

/-- The reply timer has run out in AWAIT_REPLY: the attempt ends NO_REPLY (R27). -/
def State.noReply (s : State) : State :=
  match s.exchange with
  | some x =>
    match x.phase with
    | .awaitReply => s.failAttempt x .noReply
    | .guard | .transmit | .receiveReply | .answerGuard | .answer => s
  | none => s

/-! ### The header and the payload as they are handed over -/

/-- The header meets the conditions of R40 for storing: DEST 0, SRC the polled station's address, high bits 0,
kind DATA, and the sequence bit the entry expects. -/
def State.startsArrival (s : State) (x : Exchange) (e : EntryId) (h : Header) : Bool :=
  (x.kind == .poll || x.kind == .roundPoll) && h.dest == 0#8 && h.src == s.addressOf x.place &&
    ctrlHigh h.ctrl == 0#3 && ctrlKind h.ctrl == some .data && ctrlSeq h.ctrl == (s.entry e).rxExpect

/-- The decoder hands over DEST, SRC and CTRL: an arrival begins when they meet R40's conditions and the reply
has not been restarted (R93, R137, R141). -/
def State.handHeader (s : State) (h : Header) (restarted : Bool) : State :=
  match s.exchange with
  | some x =>
    let held := s.setExchange (some { x with header := some h })
    match x.place with
    | .station e =>
      if !restarted && s.inbound.arrival.isNone && s.startsArrival x e h then held.beginArrival h.src else held
    | .broadcast => held
  | none => s

/-- The decoder hands over the next payload byte (R93, R138). -/
def State.handPayload (s : State) (v : Byte) : State :=
  match s.exchange with
  | some x =>
    let held := s.setExchange (some { x with
      firstPayload := match x.firstPayload with
        | some w => some w
        | none => some v })
    match x.place with
    | .station e => held.takePayloadByte (s.entry e).inboundLimit v
    | .broadcast => held
  | none => s

/-! ### LINE_ABORT -/

/-- What the abort does on the line and to the work in flight, by the phase it finds (R45). -/
def State.abortPhase (s : State) (p : Phase) : State :=
  match p with
  | .guard => s
  | .transmit | .answer => s.cutTransmission
  | .awaitReply => { s with line := { s.line with replyTimer := 0#8 } }
  | .receiveReply =>
    let discarded := s.discardArrival
    match discarded.line.rx with
    | .frame f => discarded.setReceiver (.frame { f with dest := .stray })
    | .hunt | .echo | .drain => discarded
  | .answerGuard => s

/-- The station's sync_needed flag is set; a broadcast sets none (R44). -/
def State.needSync (s : State) (p : Place) : State :=
  match p with
  | .station e => s.setEntry e { s.entry e with syncNeeded := true }
  | .broadcast => s

/-- The exchange in flight ends at once with the outcome ABORTED; in IDLE nothing changes (R44, R45). A reply that then
arrives opens as a stray frame, whatever the happening's choice grants: the report of a quiet line is not this
happening's (R45, assumption 22). -/
def State.abortExchange (s : State) : State :=
  match s.exchange with
  | none => s
  | some x => (((s.abortPhase x.phase).report x.place .aborted).needSync x.place).closePending x

end Sys2Proof.Machine
end

