-- ==== Sys2Proof/Machine/Receiver.lean ====
section
/-! DEFINITION. What a received character does: the guard timer (R97), the echo comparator (R88), and the
decoder in HUNT and FRAME (R90 to R96, R99, R101). -/

namespace Sys2Proof.Machine

/-- Load the guard timer with the guard time (R97). -/
def State.loadGuard (s : State) : State :=
  { s with line := { s.line with guardTimer := s.line.guardTime } }

/-- Load the gap timer with the gap time (R99). -/
def State.loadGap (s : State) : State :=
  { s with line := { s.line with gapTimer := s.line.gapTime } }

/-- Stop the gap timer (R94, R99). -/
def State.stopGap (s : State) : State := { s with line := { s.line with gapTimer := 0#4 } }

/-! ### ECHO -/

/-- A character received in ECHO is compared with the oldest in the echo list (R88): a match leaves the list,
and the End's match that empties it completes the echo; anything else is an ECHO fault. -/
def State.compareEcho (s : State) (v : Byte) (good : Bool) : State :=
  match s.line.echoList with
  | [] => s.echoFault
  | c :: rest =>
    if good ∧ v = c.value then
      let matched := { s with line := { s.line with echoList := rest } }
      if v = Config.endMark ∧ rest = [] then (matched.setReceiver .hunt).echoComplete else matched
    else s.echoFault

/-! ### HUNT -/

/-- A good Marker in HUNT opens a frame (R91): REPLY while the Exchange Controller is in AWAIT_REPLY, whose
reply timer stops and which enters RECEIVE_REPLY (R27, R98), and STRAY otherwise. -/
def State.openFrame (s : State) : State :=
  let opened := fun (t : State) (d : FrameDest) => (t.setReceiver (.frame (.begin d false))).loadGap
  match s.exchange with
  | some x =>
    if x.phase = .awaitReply then
      opened { s with
        exchange := some { x with phase := .receiveReply }
        line := { s.line with replyTimer := 0#8 } } .reply
    else opened s .stray
  | none => opened s .stray

/-! ### FRAME -/

/-- A coding fault marks the frame and is counted (R92, R101). -/
def State.codingFault (s : State) (f : InFrame) : State := s.countCoding.setReceiver (.frame f)

/-- A body byte is decoded (R92, R93): beyond 485 it is discarded and the frame marked for oversize, counted
once; otherwise it is held, an older one is released, and a REPLY frame hands over its header and payload. -/
def State.decodeByte (s : State) (f : InFrame) (v : Byte) : State :=
  if f.oversize then s.setReceiver (.frame f)
  else if Config.maxBody ≤ f.count then s.codingFault { f with oversize := true }
  else
    let held := f.hold v
    let kept := s.setReceiver (.frame held)
    match f.dest with
    | .stray => kept
    | .reply =>
      let headed :=
        if held.count = 3 then
          match held.header with
          | some h => kept.handHeader h held.restarted
          | none => kept
        else kept
      match f.releases with
      | some w => headed.handPayload w
      | none => headed

/-- A good Marker in FRAME restarts the frame with the same destination (R95): the restart is counted, as is
the shift error of a Shift left pending (R92), and a reply's arrival stops storing (R141). -/
def State.restartFrame (s : State) (f : InFrame) : State :=
  let shifted := if f.shiftPending then s.countCoding else s
  let restarted := shifted.codingFault (.begin f.dest true)
  match f.dest with
  | .reply => restarted.restartArrival
  | .stray => restarted

/-- A STRAY frame closed by its End is counted and reported to no one (R96). -/
def State.countStray (s : State) : State :=
  { s with line := { s.line with stray := satInc s.line.stray } }

/-- The CHECK counter increases when the closed frame's check fails (R101). -/
def State.countCheck (s : State) (f : InFrame) : State :=
  if f.checkFails then { s with line := { s.line with check := satInc s.line.check } } else s

/-- An End closes the frame (R94): the gap timer stops, the receiver enters HUNT, and the frame is reported to
the Exchange Controller or counted as stray. -/
def State.closeFrame (s : State) (f : InFrame) : State :=
  let closed := (s.setReceiver .hunt).stopGap.countCheck f
  match f.dest with
  | .reply => closed.closeReply f
  | .stray => closed.countStray

/-- A good character in FRAME is decoded by its value and by whether a Shift is pending (R92). -/
def State.decodeGood (s : State) (f : InFrame) (v : Byte) : State :=
  let plain := { f with shiftPending := false }
  if v = Config.marker then s.restartFrame f
  else if v = Config.endMark then
    if f.shiftPending then s.countCoding.closeFrame { plain with shiftError := true } else s.closeFrame f
  else if f.shiftPending then
    if v = 0xEF#8 ∨ v = 0xEE#8 ∨ v = 0xED#8 then s.decodeByte plain (v ^^^ Config.shiftMask)
    else s.codingFault { plain with shiftError := true }
  else if v = Config.shift then s.setReceiver (.frame { f with shiftPending := true })
  else s.decodeByte f v

/-- A character in FRAME reloads the gap timer (R99); a bad one marks the frame for a character error, yields
nothing and clears a pending Shift (R92). -/
def State.decodeCharacter (s : State) (f : InFrame) (v : Byte) (good : Bool) : State :=
  let timed := s.loadGap
  if good then timed.decodeGood f v
  else timed.codingFault { f with shiftPending := false, charError := true }

/-- A character is received (R80): it reloads the guard timer in every receiver state (R97) and reaches the
echo comparator or the decoder by the state the receiver is in. After a stop bit of 0 nothing more is
received until the input has returned to 1. -/
def State.receive (s : State) (v : Byte) (parity stop : Bool) : State :=
  if s.line.lineHeld then s
  else
    let good := goodCharacter v parity stop
    let heard := State.loadGuard { s with line := { s.line with lineHeld := !stop } }
    match s.line.rx with
    | .hunt => if good ∧ v = Config.marker then heard.openFrame else heard
    | .frame f => heard.decodeCharacter f v good
    | .echo => heard.compareEcho v good
    | .drain => heard

end Sys2Proof.Machine
end

