-- ==== Sys2Proof/Machine/Arbitration.lean ====
section
/-! DEFINITION. The Line Arbiter's choice (R64 to R75) and what every happening ends with: a choice when the
Exchange Controller is IDLE and RUN is 1, and the report of a quiet line (R97); and what a FLUSH or DETACH taken
together with a close finds (R6, R57). -/

namespace Sys2Proof.Machine

/-- The store is OPEN (R130). -/
def State.storeOpen (s : State) : Bool := s.store.restraint == .open

/-! ### Who may be served -/

/-- A probe is due for the entry (R52, R66). -/
def State.probeDue (s : State) (i : EntryId) : Bool :=
  (s.entry i).state == .working && !(s.entry i).probeTimer.running

/-- The command in a slot at the head of a pending list is startable: a SEND or ACTION always, a POLL while the
store is OPEN (R67). -/
def State.startable (s : State) (i : SlotId) : Bool :=
  match s.slot i with
  | some x =>
    match x.kind with
    | .poll => s.storeOpen
    | .send | .action | .broadcast => true
  | none => false

/-- The entry is eligible for command work (R67). -/
def State.eligible (s : State) (i : EntryId) : Bool :=
  (s.entry i).state == .ready && !(s.entry i).paused && !(s.entry i).backoffTimer.running &&
    match (s.entry i).pendingList with
    | [] => false
    | head :: _ => s.startable head

/-- The place a walk's number stands for: 16 is the broadcast list. -/
def placeOfIndex (k : Fin 17) : Place :=
  if h : k.val < 16 then .station ⟨k.val, h⟩ else .broadcast

/-- The place is eligible for command work (R67, R68). -/
def State.placeEligible (s : State) (k : Fin 17) : Bool :=
  match placeOfIndex k with
  | .station i => s.eligible i
  | .broadcast => !s.command.broadcastList.isEmpty

/-- The walk of 17 places that begins at the pointer and goes upward, wrapping from 16 to 0 (R69). -/
def walkFrom (pointer : Fin 17) : List (Fin 17) := (List.finRange 17).map fun k => pointer + k

/-- The first eligible place of the walk (R69). -/
def State.commandPick (s : State) : Option (Fin 17) :=
  (walkFrom s.arbiter.pointer).find? s.placeEligible

/-- The entry is visitable by the round (R73). -/
def State.visitable (s : State) (i : EntryId) : Bool :=
  (s.entry i).state == .ready && (s.entry i).pollMember && !(s.entry i).paused &&
    !(s.entry i).backoffTimer.running

/-- The lowest visitable entry at or above the round position (R73, R74). -/
def State.nextVisit (s : State) : Option EntryId :=
  (List.finRange 16).find? fun i => decide (s.arbiter.roundPosition.val ≤ i.val) && s.visitable i

/-- The entry round work would serve: none unless a round is in progress and the store is OPEN (R73). -/
def State.roundPick (s : State) : Option EntryId :=
  if s.arbiter.roundInProgress && s.storeOpen then s.nextVisit else none

/-- The WORKING entry with the lowest index whose probe is due (R66). -/
def State.probePick (s : State) : Option EntryId := (List.finRange 16).find? s.probeDue

/-! ### Grants -/

/-- The Exchange Controller takes a grant (R24): attempt 1, phase GUARD, and a SEND or BROADCAST record goes
from QUEUED to SENDING. -/
def State.grant (s : State) (kind : ExchangeKind) (place : Place) (slot : Option SlotId) : State :=
  let moved : State :=
    match slot.bind fun i => (s.slot i).bind Slot.handle with
    | some h => if (s.record h).state = .queued then s.moveRecord h .sending else s
    | none => s
  moved.setExchange (some
    { kind := kind, place := place, slot := slot, attempt := 1#8, phase := .guard, decision := none
      outcome := none, header := none, firstPayload := none })

/-- The exchange a command's kind is served by (R69). -/
def CommandKind.exchange : CommandKind → ExchangeKind
  | .send => .send
  | .poll => .poll
  | .action => .action
  | .broadcast => .broadcast

/-- The place beyond one of the walk, 16 wrapping to 0 (R69). -/
def nextPlace (k : Fin 17) : Fin 17 := k + 1

/-- The arbiter after a grant of command work at place `k` (R65, R69). -/
def Arbiter.afterCommand (a : Arbiter) (k : Fin 17) : Arbiter :=
  { a with pointer := nextPlace k, alternation := .command }

/-- The arbiter after a grant of round work at entry `i` (R65, R73). -/
def Arbiter.afterRound (a : Arbiter) (i : EntryId) : Arbiter :=
  { a with roundPosition := i.succ, alternation := .round }

/-- A grant of command work at place `k` (R69): a SYNC in place of the head when sync_needed is set, else the
exchange of the head command. -/
def State.grantCommand (s : State) (k : Fin 17) : State :=
  let moved := { s with arbiter := s.arbiter.afterCommand k }
  match placeOfIndex k with
  | .station i =>
    if (s.entry i).syncNeeded then moved.grant (.sync .command) (.station i) none
    else
      match (s.entry i).pendingList with
      | [] => s
      | head :: _ =>
        match s.slot head with
        | some x => moved.grant x.kind.exchange (.station i) (some head)
        | none => s
  | .broadcast =>
    match s.command.broadcastList with
    | [] => s
    | head :: _ => moved.grant .broadcast .broadcast (some head)

/-- A grant of round work at entry `i` (R73): a SYNC with origin ROUND when sync_needed is set, else a
ROUND_POLL. -/
def State.grantRound (s : State) (i : EntryId) : State :=
  State.grant { s with arbiter := s.arbiter.afterRound i }
    (if (s.entry i).syncNeeded then .sync .round else .roundPoll) (.station i) none

/-! ### The choice -/

/-- The round in progress has no station left to visit, and the store is OPEN (R74). -/
def State.roundOver (s : State) : Bool :=
  s.arbiter.roundInProgress && s.storeOpen && s.nextVisit.isNone

/-- The arbiter as a round ends: the position is 0 and the poll period timer is loaded, the period being not 0
(R74, R75). -/
def Arbiter.endRound (a : Arbiter) : Arbiter :=
  { a with
    roundInProgress := false
    roundPosition := 0
    pollTimer := if a.pollPeriod = 0#8 then a.pollTimer else .load a.pollPeriod }

/-- A finished round ends in the choice that finds it so (R74). -/
def State.endFinishedRound (s : State) : State :=
  if s.roundOver then { s with arbiter := s.arbiter.endRound } else s

/-- The grant a choice makes once a finished round has ended: the first case of R65 that holds. -/
def State.makeGrant (s : State) : State :=
  match s.probePick with
  | some i => s.grant .probe (.station i) none
  | none =>
    match s.commandPick, s.roundPick with
    | some k, some i => if s.arbiter.alternation = .round then s.grantCommand k else s.grantRound i
    | some k, none => s.grantCommand k
    | none, some i => s.grantRound i
    | none, none => s

/-- The Line Arbiter's choice (R65). -/
def State.choice (s : State) : State := s.endFinishedRound.makeGrant

/-- A choice is made in every happening after which the Exchange Controller is IDLE and RUN is 1 (R64). -/
def State.callChoice (s : State) : State :=
  if s.exchange.isNone ∧ s.host.run then s.choice else s

/-- What every happening ends with: the choice it calls (R64), and the report of a quiet line at the first
moment the line is quiet (R97). The model's reading (assumption 9): both come within the happening, but for
the report in a happening that ends a wait for a reply (`endOfWait`). -/
def State.settle (s : State) : State := s.callChoice.reportQuiet

/-! ### A close and the commands that come together with it -/

/-- The arbiter's turn. -/
def Arbiter.turn (a : Arbiter) : Turn := ⟨a.pointer, a.alternation, a.roundPosition⟩

/-- The arbiter back at a turn. -/
def Arbiter.atTurn (a : Arbiter) (t : Turn) : Arbiter :=
  { a with pointer := t.pointer, alternation := t.alternation, roundPosition := t.roundPosition }

/-- The head of the station's list in `s` is no longer on it in `t`: its completion has been posted (R4). -/
def State.headLeaves (s t : State) (p : Place) : Bool :=
  match p with
  | .station e =>
    match (s.entry e).pendingList with
    | [] => false
    | head :: _ => !(t.entry e).pendingList.contains head
  | .broadcast => false

/-- What a happening of the line taken in `s`, with effect `t` and end `u`, keeps of a close: something where the effect
closes the exchange and the choice then grants (R31, R64, assumption 21). -/
def closeOf (s t u : State) : Option Close :=
  match s.exchange, t.exchange, u.exchange with
  | some x, none, some _ => some ⟨x.place, s.headLeaves t x.place, t.endFinishedRound.arbiter.turn⟩
  | _, _, _ => none

/-- The end of a happening taken in `s` with effect `t`: it is settled. -/
def State.finish (s t : State) : State := { t.settle with lastClose := closeOf s t t.settle }

/-- The end of a happening taken in `s` with effect `t` that has ended a wait for a reply: the choice alone. -/
def State.finishWait (s t : State) : State := { t.callChoice with lastClose := closeOf s t t.callChoice }

/-- The end of a command taken through COMMAND: it is settled. Two commands of the host never come together, so it keeps
no close. -/
def State.finishCommand (t : State) : State := { t.settle with lastClose := none }

/-- The end of a LINE_ABORT that has ended a wait for a reply: the choice alone. -/
def State.finishCommandWait (t : State) : State := { t.callChoice with lastClose := none }

/-- The state with the grant that the choice of the close's own happening made to the station taken back: the station is
not engaged, as R6 says of a management command taken together with the close, the close first. The choice is made again
at the end of that command's own happening (R64, assumption 21). Where the latest happening closed no exchange of the
station, or the grant no longer stands in GUARD, nothing is changed. -/
def State.takeBack (s : State) (e : EntryId) : State :=
  match s.lastClose, s.exchange with
  | some c, some x =>
    if c.place = .station e ∧ x.place = .station e ∧ x.phase = .guard then
      { s.closePending x with arbiter := s.arbiter.atTurn c.turn }
    else s
  | _, _ => s

/-- The station as a FLUSH finds it (R6, R57): taken together with a close in which the head of its list completed, the
close first, it finds no engaged command, though the close's choice has engaged one. After any other close, and where
the choice granted a SYNC, a PROBE or a round poll, which engage no command, the exchange on the line is left as it is.
-/
def State.beforeFlush (s : State) (e : EntryId) : State :=
  if s.lastClose.any Close.headLeft && s.engagedCommand.isSome then s.takeBack e else s

/-! ### Happenings and commands -/

/-- A happening with effect `f`, taken whole: while RESET is low none is taken (R189). -/
def happening (f : State → State) (s : State) : Host.Outcome State Fault Refusal :=
  if s.resetHeld then .next s else .next (s.finish (f s))

/-- The running out of the reply or gap timer, with effect `f`, which ends the wait for a reply where it finds one.
Where it does, it calls the choice and leaves GUARD to be found: the report of a line that is quiet already is a
happening of its own (R23), which comes next, so that a Marker that comes together with this one still finds GUARD or
IDLE and opens a stray frame (R27, R96, assumption 22). -/
def endOfWait (f : State → State) (s : State) : Host.Outcome State Fault Refusal :=
  if s.resetHeld then .next s
  else if s.awaitsReply then .next (s.finishWait (f s))
  else .next (s.finish (f s))

/-- The effect of a command taken through COMMAND: refused with a reason, changing nothing but CMD_RESULT, or
accepted, CMD_RESULT written after all of its effects (R153 to R155). -/
def commandEffect (f : State → Except Reason (State × BitVec 6)) (s : State) : State :=
  match f s with
  | .error r => s.refuse r
  | .ok (t, value) => t.accept value

/-- A command taken through COMMAND: a happening like any other (R64, R97), which while RESET is low is not taken
(R189). -/
def takeCommand (f : State → Except Reason (State × BitVec 6)) (s : State) :
    Host.Outcome State Fault Refusal :=
  if s.resetHeld then .next s else .next (commandEffect f s).finishCommand

end Sys2Proof.Machine
end

