-- ==== Sys2Proof/Machine/Flags.lean ====
section
/-! DEFINITION. What the part shows the outside: the causes and the interrupt output (R180, R184), STATUS
(R174), the values every register returns (R172, R187), the values of the two queries (section 11.4,
R188), the accesses the bus takes and the output pins (section 11.5, R189). -/

namespace Sys2Proof.Machine

/-! ### Causes -/

/-- The five pending causes, code 1 first: three latched, and the condition causes COMPLETION and INBOUND
(R149, R165, R180). -/
def State.pendingCauses (s : State) : List Bool :=
  [s.host.stationLost, s.host.restraintCause, s.queue.ready, !s.inbound.list.isEmpty, s.host.hostFault]

/-- The cause of code n is pending. -/
def State.causePending (s : State) (code : Nat) : Bool := s.pendingCauses.getD (code - 1) false

/-- The cause of code n is pending and enabled (R181). -/
def State.causeShown (s : State) (code : Nat) : Bool :=
  s.causePending code && s.host.causeEnable.getLsbD (code - 1)

/-- CAUSE: the code of the pending enabled cause of the highest priority, or 0 (R180). -/
def State.cause (s : State) : Nat := (([1, 2, 3, 4, 5].find? s.causeShown).getD 0)

/-- The interrupt output is driven low: CAUSE is not 0 (R184). -/
def State.interrupt (s : State) : Bool := s.cause != 0

/-! ### The Completion Queue's head (R164) -/

/-- CQ_TAG. -/
def State.cqTag (s : State) : Word :=
  match s.queue.entries with
  | [] => 0#16
  | c :: _ => c.tag

/-- CQ_INFO. -/
def State.cqInfo (s : State) : Word :=
  match s.queue.entries with
  | [] => 0#16
  | c :: _ => 0#4 ++ bit c.handle.isSome ++ c.attempts ++ c.outcome.code ++ c.kind.code ++ 1#1

/-- CQ_DETAIL. -/
def State.cqDetail (s : State) : Word :=
  match s.queue.entries with
  | [] => 0#16
  | c :: _ => 0#2 ++ c.address.setWidth 6 ++ c.detail

/-- A handle as its six bits; 0 when absent (R187). -/
def handleBits (h : Option Handle) : BitVec 6 :=
  match h with
  | some h => BitVec.ofNat 6 h.val
  | none => 0#6

/-- CQ_EXTENT. -/
def State.cqExtent (s : State) : Word :=
  match s.queue.entries with
  | [] => 0#16
  | c :: _ => 0#1 ++ handleBits c.handle ++ BitVec.ofNat 9 c.extent

/-! ### The Inbound List's head (R147) -/

/-- IN_HEAD. -/
def State.inHead (s : State) : Word :=
  match s.inbound.list with
  | [] => 0#16
  | h :: _ => 0#2 ++ (s.record h).origin.setWidth 6 ++ 0#1 ++ handleBits (some h) ++ 1#1

/-- IN_LENGTH. -/
def State.inLength (s : State) : Word :=
  match s.inbound.list with
  | [] => 0#16
  | h :: _ => 0#7 ++ BitVec.ofNat 9 (s.record h).length

/-! ### STATUS and the data window -/

/-- STATUS (R174). -/
def State.status (s : State) : Word :=
  0#8 ++ s.host.faultKind.code ++ bit s.arbiter.roundInProgress ++ bit (!s.inbound.list.isEmpty) ++
    bit s.queue.ready ++ s.store.restraint.code ++ bit s.exchange.isSome ++ bit s.host.run

/-- The record the data window selects, with its descriptor, when it is in a state whose bytes can be read:
FILLING, READY, QUEUED, SENDING or INBOUND (R177). -/
def State.windowRecord (s : State) : Option Handle :=
  match handleOfByte s.host.winSelect with
  | some h =>
    match (s.record h).state with
    | .free | .arriving => none
    | .filling | .ready | .queued | .sending | .inbound => some h
  | none => none

/-- The word a read of WIN_DATA is served with, when it is no host fault: byte k low and byte k + 1 high
(R126, R177). -/
def State.windowRead (s : State) : Option Word :=
  match s.windowRecord with
  | some h =>
    if s.host.winOffset.toNat ≤ (s.record h).length then
      some (s.recordByte h (s.host.winOffset.toNat + 1) ++ s.recordByte h s.host.winOffset.toNat)
    else none
  | none => none

/-! ### The registers -/

/-- The value a read of the register at `offset` returns (R172, section 11.1, R187). A read of WIN_DATA has
effects too: they are WIN_DATA_READ's. -/
def State.readRegister (s : State) (offset : BitVec 5) : Word :=
  match offset.toNat with
  | 0 => Config.ident
  | 1 => 0#15 ++ bit s.host.run
  | 2 => s.status
  | 3 => BitVec.ofNat 16 s.cause
  | 4 => 0#11 ++ s.host.causeEnable
  | 7 => s.command.result.word
  | 8 => s.param 0
  | 9 => s.param 1
  | 10 => s.param 2
  | 11 => s.param 3
  | 12 => s.param 4
  | 13 => s.param 5
  | 14 => s.cqTag
  | 15 => s.cqInfo
  | 16 => s.cqDetail
  | 17 => s.cqExtent
  | 18 => s.inHead
  | 19 => s.inLength
  | 20 => 0#8 ++ s.host.winSelect
  | 21 => s.host.winOffset
  | 22 => s.windowRead.getD 0#16
  | 23 => BitVec.ofNat 16 s.freeCount
  | 24 => 0#4 ++ s.line.rate
  | 25 => 0#4 ++ s.line.gapTime ++ 0#4 ++ s.line.guardTime
  | 26 => 0#8 ++ s.line.replyTimeout
  | 27 => 0#8 ++ s.arbiter.pollPeriod
  | 28 => s.table.probeLimit ++ s.table.probeInterval
  | 29 => 0#8 ++ s.table.holdBackoff
  | 30 => s.queue.lingerTime ++ 0#2 ++ s.queue.threshold
  | 31 => s.table.lostSummary
  | _ => 0#16

/-! ### The queries -/

/-- A slot number as its five bits; 0 when absent (R188). -/
def slotBits (i : Option SlotId) : BitVec 5 :=
  match i with
  | some i => BitVec.ofNat 5 i.val
  | none => 0#5

/-- What STATION_QUERY writes of an entry to PARAM0 to PARAM5 (R19, section 11.4, R188). -/
def Entry.queryWords (e : Entry) : Vector Word 6 :=
  #v[(if e.state = .working then slotBits e.openAction else 0#5) ++ e.lastFault.code ++ bit e.rxExpect ++
        e.lengthMode.code ++ bit e.pollMember ++ bit e.syncNeeded ++ bit e.paused ++ e.state.code,
      bit e.txSeq ++ (e.address.getD 0#8).setWidth 6 ++ BitVec.ofNat 9 e.inboundLimit,
      e.probeCount ++ e.failLimit ++ e.consecFail,
      e.probeTimer.beats ++ e.backoffTimer.beats,
      e.refusals ++ e.duplicates,
      e.failTotal]

/-- The Exchange Controller's outcome as LINE_QUERY reports it: 15 when absent (R188). -/
def State.outcomeBits (s : State) : BitVec 4 :=
  match s.exchange.bind Exchange.outcome with
  | some o => o.code
  | none => 15#4

/-- PARAM0 of LINE_QUERY's view 0: SYNC origin, receiver, transmitter, entry, kind, phase; an idle Exchange
Controller has kind 0, entry 31 and phase 0 (section 11.4, R188). -/
def State.lineWord (s : State) : Word :=
  match s.exchange with
  | some x =>
    0#1 ++ x.kind.originCode ++ s.line.rx.code ++ bit s.line.tx.isSome ++ x.place.code ++ x.kind.code ++
      x.phase.code
  | none => 0#1 ++ 0#1 ++ s.line.rx.code ++ bit s.line.tx.isSome ++ 31#5 ++ 0#3 ++ 0#3

/-- The attempt number as LINE_QUERY reports it: 0 while IDLE (R22). -/
def State.attemptNumber (s : State) : Byte :=
  match s.exchange with
  | some x => x.attempt
  | none => 0#8

/-- What LINE_QUERY writes for view 0, the state of the line (R168, section 11.4). -/
def State.lineView (s : State) : Vector Word 6 :=
  #v[s.lineWord,
      s.arbiter.pollTimer.beats ++ s.attemptNumber,
      0#3 ++ BitVec.ofNat 5 s.arbiter.roundPosition.val ++ 0#1 ++ bit s.arbiter.roundInProgress ++
        s.arbiter.alternation.code ++ BitVec.ofNat 5 s.arbiter.pointer.val,
      0#2 ++ BitVec.ofNat 6 s.queue.entries.length ++ 0#2 ++ BitVec.ofNat 6 s.slotsInUse,
      0#9 ++ BitVec.ofNat 7 s.inbound.list.length,
      0#12 ++ s.outcomeBits]

/-- What LINE_QUERY writes for view 1, the line-wide counters (R168). -/
def State.counterView (s : State) : Vector Word 6 :=
  #v[s.line.stray, s.line.coding, s.line.check, s.line.echo, 0#16, 0#16]

/-! ### The bus -/

/-- The access that a change of the bus pins takes: none while RESET is low (R189). -/
def State.access (s : State) (before after : BusPins) : Option BusAccess :=
  if s.resetHeld then none else busAccess before after

/-- The command that a change of the bus pins is: that of the access it takes, if it takes one (R172, R173, R189). -/
def State.busCommand (s : State) (before after : BusPins) : Option Instr :=
  (s.access before after).bind commandOfAccess

/-- What D15 to D0 are driven with once the bus pins have changed from `before` to `after`, or stand as they stood, in
the state `s`; `driven` is what they were driven with until then. A read access presents the register's value in the
state that stands when the access is taken, at the fall of RD, and that word stands until the access ends, whatever
happens meanwhile; outside a read access, and while RESET is low, nothing is driven (R172, R189, assumption 4). -/
def State.dataDriven (s : State) (driven : Option Word) (before after : BusPins) : Option Word :=
  if s.resetHeld || !after.reading then none
  else match s.access before after with
    | some (.read offset) => some (s.readRegister offset)
    | some (.write _ _) | none => driven

/-! ### Pins -/

/-- The output pins (section 11.5, R86, R184, R189). -/
structure Pins where
  /-- INT is driven low. -/
  intLow : Bool
  /-- DE: the line driver enable, active while the transmitter is SENDING. -/
  driverEnable : Bool
  /-- The bits TXD carries for the character on the line; at rest, in QUIET, TXD is at 1. -/
  txd : List Bool
  /-- What D15 to D0 are driven with: nothing but during a read access, the word presented at its fall of RD. -/
  data : Option Word
  deriving DecidableEq, Repr

/-- The pins a state drives, `driven` being what D15 to D0 are driven with since the last change of the bus pins
(`State.dataDriven`). While RESET is low D15 to D0 are undriven (R189). -/
def State.pins (s : State) (driven : Option Word) : Pins where
  intLow := s.interrupt
  driverEnable := s.line.tx.isSome
  txd := match s.line.tx with
    | some t => characterBits t.current
    | none => [true]
  data := if s.resetHeld then none else driven

end Sys2Proof.Machine
end

