-- ==== Sys2Proof/Machine/ControlCommands.lean ====
section
/-! DEFINITION. The remaining commands taken through COMMAND: LINE_QUERY (R168), CLEAR_COUNTERS (R169), LINE_ABORT
(R44, R45), CONTROLLER_RESET (R170) and a code that names no command (R153). -/

namespace Sys2Proof.Machine

/-- LINE_QUERY's check and effect: the view is the low byte of PARAM0 (R168). -/
def lineQueryCommand (s : State) : Except Reason (State × BitVec 6) :=
  match (lowByte (s.param 0)).toNat with
  | 0 => .ok (s.setParams s.lineView, 0#6)
  | 1 => .ok (s.setParams s.counterView, 0#6)
  | _ => .error .badParam

/-- LINE_QUERY. -/
def execLineQuery (s : State) : Host.Outcome State Fault Refusal := takeCommand lineQueryCommand s

/-- The counters CLEAR_COUNTERS sets to 0 in an entry; consec_fail and last fault stay (R10, R116). -/
def Entry.cleared (e : Entry) : Entry :=
  { e with failTotal := 0#16, duplicates := 0#8, refusals := 0#8 }

/-- CLEAR_COUNTERS's effect (R169). -/
def State.clearCounters (s : State) : State :=
  { s with
    line := { s.line with stray := 0#16, coding := 0#16, check := 0#16, echo := 0#16 }
    table := { s.table with entries := s.table.entries.map Entry.cleared } }

/-- CLEAR_COUNTERS is always accepted. -/
def clearCountersCommand (s : State) : Except Reason (State × BitVec 6) := .ok (s.clearCounters, 0#6)

/-- CLEAR_COUNTERS. -/
def execClearCounters (s : State) : Host.Outcome State Fault Refusal := takeCommand clearCountersCommand s

/-- LINE_ABORT is always accepted (R44). Taken together with the happening that closes the exchange, the close first, it
finds IDLE and changes nothing (R45): a grant of that happening's own choice stands (assumption 21). -/
def lineAbortCommand (s : State) : Except Reason (State × BitVec 6) :=
  .ok (if s.lastClose.isSome then s else s.abortExchange, 0#6)

/-- LINE_ABORT. Where it ends the wait for a reply it ends with the choice alone, and the report of a line that is quiet
already comes next, so that a reply that then arrives opens a stray frame (R45, assumption 22). -/
def execLineAbort (s : State) : Host.Outcome State Fault Refusal :=
  if s.resetHeld then .next s
  else if s.awaitsReply then .next (commandEffect lineAbortCommand s).finishCommandWait
  else .next (commandEffect lineAbortCommand s).finishCommand

/-- The receiver after CONTROLLER_RESET: ECHO enters DRAIN, DRAIN stays, FRAME abandons its frame for HUNT
(R102). -/
def Receiver.afterReset : Receiver → Receiver
  | .echo | .drain => .drain
  | .hunt | .frame _ => .hunt

/-- The Line Engine after CONTROLLER_RESET (R102): as after hardware reset, but that RATE, LINE_TIMES and
REPLY_TIME are kept and a transmitter in SENDING finishes the character in progress. -/
def LineEngine.afterReset (l : LineEngine) : LineEngine :=
  { LineEngine.reset with
    tx := l.tx.map fun t => { t with stopRequested := true }
    rx := l.rx.afterReset
    rate := l.rate
    guardTime := l.guardTime
    gapTime := l.gapTime
    replyTimeout := l.replyTimeout }

/-- CONTROLLER_RESET's effect (R170): every block in its reset state but for the values kept. -/
def State.controllerReset (s : State) : State :=
  { s with
    host := { HostWindow.reset with causeEnable := s.host.causeEnable }
    command := .reset
    queue := { CompletionQueue.reset with
      threshold := s.queue.threshold, lingerTime := s.queue.lingerTime }
    table := { StationTable.reset with
      probeInterval := s.table.probeInterval
      probeLimit := s.table.probeLimit
      holdBackoff := s.table.holdBackoff }
    arbiter := { Arbiter.reset with pollPeriod := s.arbiter.pollPeriod }
    exchange := none
    line := s.line.afterReset
    store := { RecordStore.reset with bytes := s.store.bytes, low := s.store.low, high := s.store.high }
    inbound := .reset }

/-- CONTROLLER_RESET is always accepted (R170). -/
def controllerResetCommand (s : State) : Except Reason (State × BitVec 6) := .ok (s.controllerReset, 0#6)

/-- CONTROLLER_RESET. -/
def execControllerReset (s : State) : Host.Outcome State Fault Refusal :=
  takeCommand controllerResetCommand s

/-- BAD_CODE_COMMAND: a code that names no command is refused BAD_CODE (R153); a code that names one spells
another row (assumption 6). -/
def execBadCodeCommand (code : Word) (s : State) : Host.Outcome State Fault Refusal :=
  if namesCommand code then .refused .otherRow else takeCommand (fun _ => .error .badCode) s

end Sys2Proof.Machine
end

