-- ==== Sys2Proof/Machine/HostWrites.lean ====
section
/-! DEFINITION. Writes of the window's registers other than COMMAND, and the data window: CONTROL (R175), the
causes (R181, R182), CQ_INFO (R164), the data window (R176 to R179), the setup registers (R52, R75, R76,
R81, R100, R167), LOST_SUMMARY (R112), the PARAM registers and the ignored ones (R153, R172). -/

namespace Sys2Proof.Machine

/-! ### CONTROL -/

/-- The arbiter as RUN becomes 1: the poll period timer is loaded when no round is in progress, the timer is
stopped and the period is not 0 (R75). -/
def Arbiter.startPeriod (a : Arbiter) : Arbiter :=
  if !a.roundInProgress && !a.pollTimer.running && a.pollPeriod != 0#8 then
    { a with pollTimer := .load a.pollPeriod }
  else a

/-- A write of CONTROL: RUN takes the value's bit 0 and every other bit is ignored (R175, R187). -/
def State.writeControl (s : State) (value : Word) : State :=
  let run := value.getLsbD 0
  let arbiter := if run && !s.host.run then s.arbiter.startPeriod else s.arbiter
  { s with host := { s.host with run := run }, arbiter := arbiter }

/-- RUN_START. -/
def execRunStart (ignored : BitVec 15) (s : State) : Host.Outcome State Fault Refusal :=
  happening (fun t => t.writeControl (ignored ++ 1#1)) s

/-- RUN_STOP. -/
def execRunStop (ignored : BitVec 15) (s : State) : Host.Outcome State Fault Refusal :=
  happening (fun t => t.writeControl (ignored ++ 0#1)) s

/-! ### Causes -/

/-- A write of CAUSE_ENABLE takes bits 4 to 0 (R181). -/
def State.writeCauseEnable (s : State) (value : Word) : State :=
  { s with host := { s.host with causeEnable := value.extractLsb' 0 5 } }

/-- CAUSE_ENABLE_WRITE. -/
def execCauseEnableWrite (value : Word) (s : State) : Host.Outcome State Fault Refusal :=
  happening (fun t => t.writeCauseEnable value) s

/-- A write of CAUSE_ACK clears the latched cause of that code; any other value does nothing (R182). -/
def State.acknowledge (s : State) (value : Word) : State :=
  match value.toNat with
  | 1 => { s with host := { s.host with stationLost := false } }
  | 2 => { s with host := { s.host with restraintCause := false } }
  | 5 => { s with host := { s.host with hostFault := false, faultKind := .none } }
  | _ => s

/-- CAUSE_ACK. -/
def execCauseAck (value : Word) (s : State) : Host.Outcome State Fault Refusal :=
  happening (fun t => t.acknowledge value) s

/-! ### CQ_INFO -/

/-- A write of CQ_INFO removes the head of the Completion Queue; on an empty queue it is a host fault (R164,
R183). -/
def State.removeCompletion (s : State) : State :=
  match s.queue.entries with
  | [] => s.hostFault .queueEmpty
  | _ :: rest => { s with queue := { s.queue with entries := rest }.evalRemoval }

/-- CQ_INFO_WRITE: the value written is not read (R187). -/
def execCqInfoWrite (_value : Word) (s : State) : Host.Outcome State Fault Refusal :=
  happening State.removeCompletion s

/-! ### The data window -/

/-- WIN_SELECT_WRITE takes the low byte and leaves the offset (R176). -/
def execWinSelectWrite (value : Word) (s : State) : Host.Outcome State Fault Refusal :=
  happening (fun t => { t with host := { t.host with winSelect := lowByte value } }) s

/-- WIN_OFFSET_WRITE takes the value with bit 0 cleared (R176). -/
def execWinOffsetWrite (value : Word) (s : State) : Host.Outcome State Fault Refusal :=
  happening (fun t => { t with host := { t.host with winOffset := value.extractLsb' 1 15 ++ 0#1 } }) s

/-- Every access of WIN_DATA adds 2 to the offset after it has been served; 65,534 wraps to 0 (R176). -/
def State.advanceWindow (s : State) : State :=
  { s with host := { s.host with winOffset := s.host.winOffset + 2#16 } }

/-- A read of WIN_DATA (R177): the bytes are presented, or 0 with a host fault. -/
def State.readWindow (s : State) : State :=
  match s.windowRead with
  | some w => State.advanceWindow { s with readData := w }
  | none => (State.hostFault { s with readData := 0#16 } .windowRead).advanceWindow

/-- WIN_DATA_READ. -/
def execWinDataRead (s : State) : Host.Outcome State Fault Refusal := happening State.readWindow s

/-- The record a write of WIN_DATA is stored in: the one selected, FILLING, with the offset below its length
(R178). -/
def State.windowTarget (s : State) : Option Handle :=
  match handleOfByte s.host.winSelect with
  | some h =>
    if (s.record h).state = .filling ∧ s.host.winOffset.toNat < (s.record h).length then some h else none
  | none => none

/-- Store the low half as byte k, and the high half as byte k + 1 when that lies below the length (R126,
R178). -/
def State.storeWindow (s : State) (h : Handle) (value : Word) : State :=
  let k := s.host.winOffset.toNat
  let low := s.writeRecordByte h k (lowByte value)
  if k + 1 < (s.record h).length then low.writeRecordByte h (k + 1) (highByte value) else low

/-- A write of WIN_DATA (R178): stored, or dropped with a host fault. -/
def State.writeWindow (s : State) (value : Word) : State :=
  match s.windowTarget with
  | some h => (s.storeWindow h value).advanceWindow
  | none => (s.hostFault .windowWrite).advanceWindow

/-- WIN_DATA_WRITE. -/
def execWinDataWrite (value : Word) (s : State) : Host.Outcome State Fault Refusal :=
  happening (fun t => t.writeWindow value) s

/-! ### Setup registers -/

/-- RATE_WRITE: a divisor of 0 leaves the divisor as it was (R81). -/
def State.writeRate (s : State) (value : Word) : State :=
  let divisor : BitVec 12 := value.extractLsb' 0 12
  if divisor = 0#12 then s else { s with line := { s.line with rate := divisor } }

/-- RATE_WRITE. -/
def execRateWrite (value : Word) (s : State) : Host.Outcome State Fault Refusal :=
  happening (fun t => t.writeRate value) s

/-- LINE_TIMES: each field is taken when it is in its range, guard 1 to 15 and gap 2 to 15 (R100). -/
def State.writeLineTimes (s : State) (value : Word) : State :=
  let guardTime : BitVec 4 := value.extractLsb' 0 4
  let gapTime : BitVec 4 := value.extractLsb' 8 4
  { s with line := { s.line with
      guardTime := if guardTime = 0#4 then s.line.guardTime else guardTime
      gapTime := if gapTime.toNat < 2 then s.line.gapTime else gapTime } }

/-- LINE_TIMES_WRITE. -/
def execLineTimesWrite (value : Word) (s : State) : Host.Outcome State Fault Refusal :=
  happening (fun t => t.writeLineTimes value) s

/-- REPLY_TIME: a timeout of 0 or 1 keeps the previous value (R100). -/
def State.writeReplyTime (s : State) (value : Word) : State :=
  { s with line := { s.line with
      replyTimeout := if (lowByte value).toNat < 2 then s.line.replyTimeout else lowByte value } }

/-- REPLY_TIME_WRITE. -/
def execReplyTimeWrite (value : Word) (s : State) : Host.Outcome State Fault Refusal :=
  happening (fun t => t.writeReplyTime value) s

/-- POLL_TIME (R75): 0 turns rounds off and stops the timer; another period is loaded when no round is in
progress, the timer is stopped and RUN is 1. -/
def State.writePollTime (s : State) (value : Word) : State :=
  let period := lowByte value
  if period = 0#8 then { s with arbiter := { s.arbiter with pollPeriod := 0#8, pollTimer := .stopped } }
  else
    let a := { s.arbiter with pollPeriod := period }
    { s with arbiter := if s.host.run then a.startPeriod else a }

/-- POLL_TIME_WRITE. -/
def execPollTimeWrite (value : Word) (s : State) : Host.Outcome State Fault Refusal :=
  happening (fun t => t.writePollTime value) s

/-- PROBE_SETUP: a field of 0 leaves that field at its previous value (R52). -/
def State.writeProbeSetup (s : State) (value : Word) : State :=
  { s with table := { s.table with
      probeInterval := if lowByte value = 0#8 then s.table.probeInterval else lowByte value
      probeLimit := if highByte value = 0#8 then s.table.probeLimit else highByte value } }

/-- PROBE_SETUP_WRITE. -/
def execProbeSetupWrite (value : Word) (s : State) : Host.Outcome State Fault Refusal :=
  happening (fun t => t.writeProbeSetup value) s

/-- BACKOFF: 0 leaves the value as it was (R76). -/
def State.writeBackoff (s : State) (value : Word) : State :=
  { s with table := { s.table with
      holdBackoff := if lowByte value = 0#8 then s.table.holdBackoff else lowByte value } }

/-- BACKOFF_WRITE. -/
def execBackoffWrite (value : Word) (s : State) : Host.Outcome State Fault Refusal :=
  happening (fun t => t.writeBackoff value) s

/-- COALESCE: a threshold of 1 to 32 is taken, the linger time is taken as written, and the coalescing state is
evaluated with the values then in force (R165 to R167). -/
def State.writeCoalesce (s : State) (value : Word) : State :=
  let threshold : BitVec 6 := value.extractLsb' 0 6
  { s with queue := CompletionQueue.evalWrite { s.queue with
      threshold :=
        if 1 ≤ threshold.toNat ∧ threshold.toNat ≤ 32 then threshold else s.queue.threshold
      lingerTime := highByte value } }

/-- COALESCE_WRITE. -/
def execCoalesceWrite (value : Word) (s : State) : Host.Outcome State Fault Refusal :=
  happening (fun t => t.writeCoalesce value) s

/-- LOST_SUMMARY: each bit written as 1 is cleared (R112). -/
def State.writeLostSummary (s : State) (value : Word) : State :=
  { s with table := { s.table with lostSummary := s.table.lostSummary &&& ~~~value } }

/-- LOST_SUMMARY_WRITE. -/
def execLostSummaryWrite (value : Word) (s : State) : Host.Outcome State Fault Refusal :=
  happening (fun t => t.writeLostSummary value) s

/-! ### The other registers -/

/-- The PARAM register at an offset, 8 to 13. -/
def paramAt (offset : BitVec 5) : Option (Fin 6) :=
  if h : 8 ≤ offset.toNat ∧ offset.toNat < 14 then some ⟨offset.toNat - 8, by omega⟩ else none

/-- A write of a PARAM register stores the value; a write of an ignored register changes nothing (R153, R172,
R173). -/
def State.writeOther (s : State) (offset : BitVec 5) (value : Word) : State :=
  match paramAt offset with
  | some i => s.setParams (s.command.params.set i value)
  | none => s

/-- OTHER_REGISTER_WRITE; the offset of a register with a row of its own spells that row (assumption 6). -/
def execOtherRegisterWrite (offset : BitVec 5) (value : Word) (s : State) :
    Host.Outcome State Fault Refusal :=
  if isParamOffset offset || isIgnoredOffset offset then happening (fun t => t.writeOther offset value) s
  else .refused .otherRow

end Sys2Proof.Machine
end

