-- ==== Sys2Proof/Machine/LineCommands.lean ====
section
/-! DEFINITION. The line commands SEND, POLL, ACTION and BROADCAST: their checks in order (R157) and the effects
of their acceptance (R158). -/

namespace Sys2Proof.Machine

/-- The station a line command names: the address checks, then STATION_FAILED (R111, R157 checks 1 and 2). -/
def State.lineStation (s : State) : Except Reason EntryId :=
  match s.namedEntry with
  | .error r => .error r
  | .ok e => if (s.entry e).state = .failed then .error .stationFailed else .ok e

/-- The slot joins the tail of its list: its entry's pending list, or the broadcast list (R4, R160). -/
def State.joinList (s : State) (p : Place) (i : SlotId) : State :=
  match p with
  | .station e => s.setEntry e { s.entry e with pendingList := (s.entry e).pendingList ++ [i] }
  | .broadcast =>
    { s with command := { s.command with broadcastList := s.command.broadcastList ++ [i] } }

/-- The record named goes from READY to QUEUED and takes the command's KEEP flag (R127). -/
def State.queueRecord (s : State) (h : Option Handle) (keep : Bool) : State :=
  match h with
  | some h => s.setRecord h { s.record h with state := .queued, keep := keep }
  | none => s

/-- The last check of a line command and the effects of its acceptance: QUEUE_FULL while the commitment count
is 32, else the lowest free slot is taken, the record queued and the list joined (R156 to R159). -/
def State.takeSlot (s : State) (x : Slot) : Except Reason (State × BitVec 6) :=
  if Config.commitmentLimit ≤ s.commitment then .error .queueFull
  else
    match s.lowestFreeSlot with
    | none => .error .queueFull
    | some i =>
      .ok ((((s.setSlot i (some x)).queueRecord x.handle x.keep).joinList x.place i), BitVec.ofNat 6 i.val)

/-- The slot a SEND takes (R156). -/
def State.sendSlot (s : State) (e : EntryId) (h : Handle) : Slot where
  kind := .send
  tag := s.paramTag
  address := s.paramAddress
  place := .station e
  handle := some h
  keep := s.paramKeep
  action := none
  attempts := 0#4
  cancelMark := false

/-- The slot a POLL takes (R156). -/
def State.pollSlot (s : State) (e : EntryId) : Slot where
  kind := .poll
  tag := s.paramTag
  address := s.paramAddress
  place := .station e
  handle := none
  keep := false
  action := none
  attempts := 0#4
  cancelMark := false

/-- The slot an ACTION takes, with its code and parameter bytes (R47, R156). -/
def State.actionSlot (s : State) (e : EntryId) : Slot where
  kind := .action
  tag := s.paramTag
  address := s.paramAddress
  place := .station e
  handle := none
  keep := false
  action := some s.paramAction
  attempts := 0#4
  cancelMark := false

/-- The slot a BROADCAST takes (R156). -/
def State.broadcastSlot (s : State) (h : Handle) : Slot where
  kind := .broadcast
  tag := s.paramTag
  address := Config.broadcastAddress
  place := .broadcast
  handle := some h
  keep := s.paramKeep
  action := none
  attempts := 0#4
  cancelMark := false

/-- The record a SEND or BROADCAST names must be READY (R127, R157 check 4). -/
def State.readyRecordNamed (s : State) : Except Reason Handle :=
  s.judgeRecord s.paramHandle (· == .ready)

/-- SEND's checks and effects (R157, R158). -/
def sendCommand (s : State) : Except Reason (State × BitVec 6) :=
  match s.lineStation with
  | .error r => .error r
  | .ok e =>
    match s.readyRecordNamed with
    | .error r => .error r
    | .ok h => s.takeSlot (s.sendSlot e h)

/-- POLL's checks and effects (R157, R158). -/
def pollCommand (s : State) : Except Reason (State × BitVec 6) :=
  match s.lineStation with
  | .error r => .error r
  | .ok e => s.takeSlot (s.pollSlot e)

/-- ACTION's checks and effects: a parameter count above 6 is BAD_PARAM (R47, R157 check 3, R158). -/
def actionCommand (s : State) : Except Reason (State × BitVec 6) :=
  match s.lineStation with
  | .error r => .error r
  | .ok e => if 6 < s.paramActionCount then .error .badParam else s.takeSlot (s.actionSlot e)

/-- BROADCAST's checks and effects: it names no station (R157, R158, R160). -/
def broadcastCommand (s : State) : Except Reason (State × BitVec 6) :=
  match s.readyRecordNamed with
  | .error r => .error r
  | .ok h => s.takeSlot (s.broadcastSlot h)

/-- SEND. -/
def execSend (s : State) : Host.Outcome State Fault Refusal := takeCommand sendCommand s

/-- POLL. -/
def execPoll (s : State) : Host.Outcome State Fault Refusal := takeCommand pollCommand s

/-- ACTION. -/
def execAction (s : State) : Host.Outcome State Fault Refusal := takeCommand actionCommand s

/-- BROADCAST. -/
def execBroadcast (s : State) : Host.Outcome State Fault Refusal := takeCommand broadcastCommand s

end Sys2Proof.Machine
end

