-- ==== Sys2Proof/Machine/LineEvents.lean ====
section
/-! DEFINITION. What happens on the drop line and at the RESET pin: characters received and sent (R80, R87), the
guard, reply and gap timers (R97 to R99), the echo deadline and the end of DRAIN (R88, R89), and the two
edges of RESET (R189). A happening that cannot occur in the state it finds changes nothing (assumption 5). -/

namespace Sys2Proof.Machine

/-- HARDWARE_RESET: every block takes its reset state and is held there (R189, R20, R46, R78, R102, R134, R151,
R171, R185). While RESET is already low there is no falling edge. -/
def execHardwareReset (s : State) : Host.Outcome State Fault Refusal :=
  if s.resetHeld then .next s
  else .next { State.reset with resetHeld := true, pending := s.pending }

/-- RESET_RELEASE: the hold ends (R189). While RESET is high there is no rising edge. -/
def execResetRelease (s : State) : Host.Outcome State Fault Refusal := .next { s with resetHeld := false }

/-- CHARACTER_RECEIVED. -/
def execCharacterReceived (value : Byte) (parity stop : Bool) (s : State) :
    Host.Outcome State Fault Refusal :=
  happening (fun t => t.receive value parity stop) s

/-- After a stop-bit error the input has been at 1 for one bit time: the guard timer is loaded and the receiver
looks for a start bit again (R80, R97). -/
def State.inputReturn (s : State) : State :=
  if s.line.lineHeld then State.loadGuard { s with line := { s.line with lineHeld := false } } else s

/-- INPUT_RETURN_AFTER_STOP_ERROR. -/
def execInputReturnAfterStopError (s : State) : Host.Outcome State Fault Refusal :=
  happening State.inputReturn s

/-- The transmitter has a further character to begin: it is SENDING, its character is not the frame's End, no
stop request has been taken, and the echo list has room (R87, R88). -/
def State.mayTransmit (s : State) (t : Transmission) : Bool :=
  !t.isEnd && !t.stopRequested && decide (s.line.echoList.length < 3)

/-- The previous character's stop bit ends: the next character is coded, begins, and joins the echo list (R87,
R88). -/
def State.transmitNext (s : State) : State :=
  match s.line.tx with
  | some t =>
    if s.mayTransmit t then
      let next := s.nextCharacter t
      { s with line := { s.line with tx := some next, echoList := s.line.echoList ++ [echoOf next.current] } }
    else s
  | none => s

/-- TRANSMIT_CHARACTER. -/
def execTransmitCharacter (s : State) : Host.Outcome State Fault Refusal := happening State.transmitNext s

/-- The stop bit of the End, or of the last character after a stop request, has gone out: the transmitter is
QUIET (R87). -/
def State.finishSending (s : State) : State :=
  match s.line.tx with
  | some t => if t.isEnd || t.stopRequested then { s with line := { s.line with tx := none } } else s
  | none => s

/-- FRAME_SENT. -/
def execFrameSent (s : State) : Host.Outcome State Fault Refusal := happening State.finishSending s

/-- GUARD_TIMER_EXPIRY: the guard timer stops; a quiet line is then reported (R97). -/
def execGuardTimerExpiry (s : State) : Host.Outcome State Fault Refusal :=
  happening (fun t => { t with line := { t.line with guardTimer := 0#4 } }) s

/-- A running reply timer runs out: it stops, and in AWAIT_REPLY the attempt ends NO_REPLY (R98). -/
def State.replyTimeUp (s : State) : State :=
  if s.line.replyTimer = 0#8 then s
  else State.noReply { s with line := { s.line with replyTimer := 0#8 } }

/-- REPLY_TIMER_EXPIRY. -/
def execReplyTimerExpiry (s : State) : Host.Outcome State Fault Refusal := endOfWait State.replyTimeUp s

/-- The gap timer runs out inside a frame: the frame is abandoned, the receiver enters HUNT, and a REPLY closes
with the outcome GAP (R99). -/
def State.gapTimeUp (s : State) : State :=
  if s.line.gapTimer = 0#4 then s
  else
    match s.line.rx with
    | .frame f =>
      let ended := (s.setReceiver .hunt).stopGap
      match f.dest with
      | .reply => ended.gapReply
      | .stray => ended
    | .hunt | .echo | .drain => s

/-- GAP_TIMER_EXPIRY. -/
def execGapTimerExpiry (s : State) : Host.Outcome State Fault Refusal := endOfWait State.gapTimeUp s

/-- The deadline of the oldest character in the echo list passes in ECHO: an ECHO fault (R88). -/
def State.echoOverdue (s : State) : State :=
  match s.line.rx with
  | .echo => if s.line.echoList = [] then s else s.echoFault
  | .hunt | .frame _ | .drain => s

/-- ECHO_DEADLINE. -/
def execEchoDeadline (s : State) : Host.Outcome State Fault Refusal := happening State.echoOverdue s

/-- One character time has passed in DRAIN with the transmitter QUIET: the receiver enters HUNT (R89, R90). -/
def State.drainOver (s : State) : State :=
  match s.line.rx with
  | .drain => if s.line.tx.isNone then s.setReceiver .hunt else s
  | .hunt | .frame _ | .echo => s

/-- DRAIN_END. -/
def execDrainEnd (s : State) : Host.Outcome State Fault Refusal := happening State.drainOver s

end Sys2Proof.Machine
end

