-- ==== Sys2Proof/Machine/RecordCommands.lean ====
section
/-! DEFINITION. The host commands on records and marks: ALLOC, SEAL, FREE (R123 to R125), RELEASE (R148) and
SET_MARKS (R132). -/

namespace Sys2Proof.Machine

/-- An accepted ALLOC (R123): the handle becomes FILLING with the blocks it needs from the head of the free
list, every byte of them 0. -/
def State.allocate (s : State) (h : Handle) (length : Nat) : State :=
  let blocks := s.store.freeList.take (blocksFor length)
  let filled := s.setRecord h
    { state := .filling, length := length, chain := blocks, origin := 0#8, keep := false }
  State.takeBlocks
    { filled with store := { filled.store with bytes := zeroBlocks filled.store.bytes blocks } }
    (blocksFor length)

/-- ALLOC's checks in order, and its effect (R123). -/
def allocCommand (s : State) : Except Reason (State × BitVec 6) :=
  if s.paramLength = 0 ∨ Config.maxPayload < s.paramLength then .error .badParam
  else
    match s.lowestFreeHandle with
    | none => .error .noHandle
    | some h =>
      if s.freeCount < blocksFor s.paramLength then .error .noBlocks
      else .ok (s.allocate h s.paramLength, BitVec.ofNat 6 h.val)

/-- ALLOC. -/
def execAlloc (s : State) : Host.Outcome State Fault Refusal := takeCommand allocCommand s

/-- SEAL's checks and effect (R124). -/
def sealCommand (s : State) : Except Reason (State × BitVec 6) :=
  match s.judgeRecord s.paramHandle (· == .filling) with
  | .error r => .error r
  | .ok h => .ok (s.moveRecord h .ready, 0#6)

/-- SEAL. -/
def execSeal (s : State) : Host.Outcome State Fault Refusal := takeCommand sealCommand s

/-- FREE's checks and effect (R125). -/
def freeCommand (s : State) : Except Reason (State × BitVec 6) :=
  match s.judgeRecord s.paramHandle (fun r => r == .filling || r == .ready) with
  | .error r => .error r
  | .ok h => .ok (s.freeRecord h, 0#6)

/-- FREE. -/
def execFree (s : State) : Host.Outcome State Fault Refusal := takeCommand freeCommand s

/-- RELEASE's check and effect: the head of the Inbound List is freed (R148). -/
def releaseCommand (s : State) : Except Reason (State × BitVec 6) :=
  match s.inbound.list with
  | [] => .error .emptyList
  | h :: rest => .ok (State.freeRecord { s with inbound := { s.inbound with list := rest } } h, 0#6)

/-- RELEASE. -/
def execRelease (s : State) : Host.Outcome State Fault Refusal := takeCommand releaseCommand s

/-- The restraint state evaluated against new marks (R132). -/
def State.evalMarks (s : State) : State :=
  if s.freeCount ≤ s.store.low then s.setRestraint .restrained
  else if s.store.high ≤ s.freeCount then s.setRestraint .open
  else s

/-- SET_MARKS's check and effect: LOW is the whole of PARAM0 and HIGH of PARAM1 (R132). -/
def setMarksCommand (s : State) : Except Reason (State × BitVec 6) :=
  if (s.param 0).toNat ≤ 510 ∧ (s.param 0).toNat < (s.param 1).toNat ∧ (s.param 1).toNat ≤ 512 then
    .ok (State.evalMarks
      { s with store := { s.store with low := (s.param 0).toNat, high := (s.param 1).toNat } }, 0#6)
  else .error .badParam

/-- SET_MARKS. -/
def execSetMarks (s : State) : Host.Outcome State Fault Refusal := takeCommand setMarksCommand s

end Sys2Proof.Machine
end

