-- ==== Sys2Proof/Machine/StationCommands.lean ====
section
/-! DEFINITION. The management commands on stations (R11 to R19): ATTACH, DETACH, PAUSE, RESUME, REVIVE, FLUSH
and STATION_QUERY. -/

namespace Sys2Proof.Machine

/-- A management command on a station named by address, after the address checks (R3). -/
def State.onStation (s : State) (f : EntryId → Except Reason State) : Except Reason (State × BitVec 6) :=
  match s.namedEntry with
  | .error r => .error r
  | .ok e =>
    match f e with
    | .error r => .error r
    | .ok t => .ok (t, 0#6)

/-! ### ATTACH -/

/-- The limits of ATTACH are in range: fail limit 0 to 15, inbound limit 1 to 480 (R11 check 2). -/
def State.attachLimitsFit (s : State) : Bool :=
  decide (s.paramFailLimit.toNat ≤ 15) && decide (1 ≤ s.paramInboundLimit) &&
    decide (s.paramInboundLimit ≤ Config.maxPayload)

/-- The entry an accepted ATTACH makes (R12); a fail limit parameter of 0 selects 3 (R11). -/
def State.attachedEntry (s : State) : Entry :=
  { Entry.vacant with
    state := .ready
    address := some s.paramAddress
    syncNeeded := true
    failLimit := if s.paramFailLimit = 0#8 then 3#4 else s.paramFailLimit.setWidth 4
    lengthMode := s.paramLengthMode
    inboundLimit := s.paramInboundLimit
    pollMember := s.paramPollMember }

/-- ATTACH's checks in order, and its effect (R11, R12). -/
def attachCommand (s : State) : Except Reason (State × BitVec 6) :=
  if !addressInRange s.paramAddress then .error .badAddress
  else if !s.attachLimitsFit then .error .badParam
  else if (s.entryHolding s.paramAddress).isSome then .error .duplicateAddress
  else
    match s.lowestVacant with
    | none => .error .tableFull
    | some i => .ok (s.setEntry i s.attachedEntry, BitVec.ofNat 6 i.val)

/-- ATTACH. -/
def execAttach (s : State) : Host.Outcome State Fault Refusal := takeCommand attachCommand s

/-! ### DETACH -/

/-- How DETACH completes the command in slot `i` of entry `e` (R14): the open action DETACHED with the probe
count, a marked command CANCELLED, any other DETACHED. -/
def State.detachOutcome (s : State) (e : EntryId) (i : SlotId) : Outcome × Byte × Nat :=
  if (s.entry e).openAction = some i then (.detached, 0#8, (s.entry e).probeCount.toNat)
  else if s.marked i then (.cancelled, 0#8, 0)
  else (.detached, 0#8, 0)

/-- DETACH of an entry: refused ENGAGED while the station is engaged (R13), else every pending command
completes and the entry becomes VACANT (R14). -/
def State.detach (s : State) (e : EntryId) : Except Reason State :=
  if s.engaged e then .error .engaged
  else .ok ((s.completeAll e (s.detachOutcome e)).setEntry e Entry.vacant)

/-- DETACH's checks and effect. Taken together with a happening of the line that closes the station's exchange, the
close first, it finds the station not engaged (R6, assumption 21). -/
def detachCommand (s : State) : Except Reason (State × BitVec 6) :=
  s.onStation fun e => (s.takeBack e).detach e

/-- DETACH. -/
def execDetach (s : State) : Host.Outcome State Fault Refusal := takeCommand detachCommand s

/-! ### PAUSE and RESUME -/

/-- Set or clear an entry's paused flag (R15). -/
def State.setPaused (s : State) (e : EntryId) (paused : Bool) : State :=
  s.setEntry e { s.entry e with paused := paused }

/-- PAUSE's checks and effect (R15). -/
def pauseCommand (s : State) : Except Reason (State × BitVec 6) :=
  s.onStation fun e => .ok (s.setPaused e true)

/-- RESUME's checks and effect (R15). -/
def resumeCommand (s : State) : Except Reason (State × BitVec 6) :=
  s.onStation fun e => .ok (s.setPaused e false)

/-- PAUSE. -/
def execPause (s : State) : Host.Outcome State Fault Refusal := takeCommand pauseCommand s

/-- RESUME. -/
def execResume (s : State) : Host.Outcome State Fault Refusal := takeCommand resumeCommand s

/-! ### REVIVE -/

/-- The entry an accepted REVIVE makes (R17). -/
def Entry.revived (e : Entry) : Entry :=
  { e with
    state := .ready, consecFail := 0#4, syncNeeded := true, backoffTimer := .stopped, probeCount := 0#8 }

/-- REVIVE's checks and effect: refused BAD_STATE unless the station is FAILED (R17). -/
def reviveCommand (s : State) : Except Reason (State × BitVec 6) :=
  s.onStation fun e =>
    if (s.entry e).state = .failed then .ok (s.setEntry e (s.entry e).revived) else .error .badState

/-- REVIVE. -/
def execRevive (s : State) : Host.Outcome State Fault Refusal := takeCommand reviveCommand s

/-! ### FLUSH -/

/-- The head of the entry's list is spared: it is the engaged command or the open action (R18). -/
def State.headSpared (s : State) (e : EntryId) : Bool :=
  match (s.entry e).pendingList with
  | [] => false
  | head :: _ => s.engagedCommand == some head || (s.entry e).openAction == some head

/-- Give the command in a slot a cancel mark (R5). -/
def State.markSlot (s : State) (i : SlotId) : State :=
  match s.slot i with
  | some x => s.setSlot i (some { x with cancelMark := true })
  | none => s

/-- FLUSH of an entry (R18, R57): behind a spared head every command is marked; with no head spared every command
completes CANCELLED. -/
def State.flush (s : State) (e : EntryId) : State :=
  if s.headSpared e then (s.entry e).pendingList.tail.foldl State.markSlot s
  else s.completeAll e fun _ => (.cancelled, 0#8, 0)

/-- FLUSH's checks and effect. Taken together with a close in which the head of the station's list completed, as with
the DONE that ends an action, the close first, it finds no engaged command and cancels the whole list (R6, R57,
assumption 21). -/
def flushCommand (s : State) : Except Reason (State × BitVec 6) :=
  s.onStation fun e => .ok ((s.beforeFlush e).flush e)

/-- FLUSH. -/
def execFlush (s : State) : Host.Outcome State Fault Refusal := takeCommand flushCommand s

/-! ### STATION_QUERY -/

/-- STATION_QUERY's check and effect: the entry index is the low byte of PARAM0 (R19). -/
def stationQueryCommand (s : State) : Except Reason (State × BitVec 6) :=
  match entryOfByte (lowByte (s.param 0)) with
  | none => .error .badParam
  | some e => .ok (s.setParams (s.entry e).queryWords, 0#6)

/-- STATION_QUERY. -/
def execStationQuery (s : State) : Host.Outcome State Fault Refusal := takeCommand stationQueryCommand s

end Sys2Proof.Machine
end

