-- ==== Sys2Proof/Machine/TimerEvents.lean ====
section
/-! DEFINITION. The running out of the long timers and of the linger timer (R9, R52, R72, R76, R165, R166). A
stopped timer does not run out (R62). -/

namespace Sys2Proof.Machine

/-- A poll round begins: round in progress is set and the round position is 0 (R72). -/
def Arbiter.beginRound (a : Arbiter) : Arbiter :=
  { a with pollTimer := .stopped, roundInProgress := true, roundPosition := 0 }

/-- The poll period timer runs out (R72). -/
def State.pollPeriodUp (s : State) : State :=
  if s.arbiter.pollTimer.running then { s with arbiter := s.arbiter.beginRound } else s

/-- POLL_PERIOD_EXPIRY. -/
def execPollPeriodExpiry (s : State) : Host.Outcome State Fault Refusal := happening State.pollPeriodUp s

/-- A station's backoff timer runs out and stops (R76). -/
def State.backoffUp (s : State) (e : EntryId) : State :=
  s.setEntry e { s.entry e with backoffTimer := .stopped }

/-- BACKOFF_EXPIRY. -/
def execBackoffExpiry (entry : EntryId) (s : State) : Host.Outcome State Fault Refusal :=
  happening (fun t => t.backoffUp entry) s

/-- A station's probe timer runs out and stops; a WORKING station's probe is then due (R52). -/
def State.probeTimeUp (s : State) (e : EntryId) : State :=
  s.setEntry e { s.entry e with probeTimer := .stopped }

/-- PROBE_TIMER_EXPIRY. -/
def execProbeTimerExpiry (entry : EntryId) (s : State) : Host.Outcome State Fault Refusal :=
  happening (fun t => t.probeTimeUp entry) s

/-- The linger timer runs out: it stops, and the completion-ready flag is set if the queue is not empty (R165,
R166). -/
def State.lingerUp (s : State) : State :=
  if s.queue.lingerTimer = 0#8 then s
  else { s with queue := { s.queue with
      lingerTimer := 0#8
      ready := if s.queue.entries = [] then s.queue.ready else true } }

/-- LINGER_EXPIRY. -/
def execLingerExpiry (s : State) : Host.Outcome State Fault Refusal := happening State.lingerUp s

end Sys2Proof.Machine
end

