-- ==== Sys2Proof/Machine/Dispatch.lean ====
section
/-! DEFINITION. exec: one arm per row of spec/opcode_table.json, each one call of that row's meaning. A
command's meaning is its effect on everything but the queue of waiting commands. -/

namespace Sys2Proof.Machine

def exec (i : Instr) (s : State) : Host.Outcome State Fault Refusal :=
  match i with
  | .send => Sys2Proof.Machine.execSend s
  | .poll => Sys2Proof.Machine.execPoll s
  | .action => Sys2Proof.Machine.execAction s
  | .broadcast => Sys2Proof.Machine.execBroadcast s
  | .attach => Sys2Proof.Machine.execAttach s
  | .detach => Sys2Proof.Machine.execDetach s
  | .pause => Sys2Proof.Machine.execPause s
  | .resume => Sys2Proof.Machine.execResume s
  | .revive => Sys2Proof.Machine.execRevive s
  | .flush => Sys2Proof.Machine.execFlush s
  | .stationQuery => Sys2Proof.Machine.execStationQuery s
  | .lineQuery => Sys2Proof.Machine.execLineQuery s
  | .clearCounters => Sys2Proof.Machine.execClearCounters s
  | .alloc => Sys2Proof.Machine.execAlloc s
  | .sealRecord => Sys2Proof.Machine.execSeal s
  | .free => Sys2Proof.Machine.execFree s
  | .release => Sys2Proof.Machine.execRelease s
  | .setMarks => Sys2Proof.Machine.execSetMarks s
  | .lineAbort => Sys2Proof.Machine.execLineAbort s
  | .controllerReset => Sys2Proof.Machine.execControllerReset s
  | .badCodeCommand code => Sys2Proof.Machine.execBadCodeCommand code s
  | .runStart ignored => Sys2Proof.Machine.execRunStart ignored s
  | .runStop ignored => Sys2Proof.Machine.execRunStop ignored s
  | .causeEnableWrite value => Sys2Proof.Machine.execCauseEnableWrite value s
  | .causeAck value => Sys2Proof.Machine.execCauseAck value s
  | .cqInfoWrite value => Sys2Proof.Machine.execCqInfoWrite value s
  | .winSelectWrite value => Sys2Proof.Machine.execWinSelectWrite value s
  | .winOffsetWrite value => Sys2Proof.Machine.execWinOffsetWrite value s
  | .winDataRead => Sys2Proof.Machine.execWinDataRead s
  | .winDataWrite value => Sys2Proof.Machine.execWinDataWrite value s
  | .rateWrite value => Sys2Proof.Machine.execRateWrite value s
  | .lineTimesWrite value => Sys2Proof.Machine.execLineTimesWrite value s
  | .replyTimeWrite value => Sys2Proof.Machine.execReplyTimeWrite value s
  | .pollTimeWrite value => Sys2Proof.Machine.execPollTimeWrite value s
  | .probeSetupWrite value => Sys2Proof.Machine.execProbeSetupWrite value s
  | .backoffWrite value => Sys2Proof.Machine.execBackoffWrite value s
  | .coalesceWrite value => Sys2Proof.Machine.execCoalesceWrite value s
  | .lostSummaryWrite value => Sys2Proof.Machine.execLostSummaryWrite value s
  | .otherRegisterWrite offset value => Sys2Proof.Machine.execOtherRegisterWrite offset value s
  | .hardwareReset => Sys2Proof.Machine.execHardwareReset s
  | .resetRelease => Sys2Proof.Machine.execResetRelease s
  | .characterReceived value parity stop => Sys2Proof.Machine.execCharacterReceived value parity stop s
  | .inputReturnAfterStopError => Sys2Proof.Machine.execInputReturnAfterStopError s
  | .transmitCharacter => Sys2Proof.Machine.execTransmitCharacter s
  | .frameSent => Sys2Proof.Machine.execFrameSent s
  | .guardTimerExpiry => Sys2Proof.Machine.execGuardTimerExpiry s
  | .replyTimerExpiry => Sys2Proof.Machine.execReplyTimerExpiry s
  | .gapTimerExpiry => Sys2Proof.Machine.execGapTimerExpiry s
  | .echoDeadline => Sys2Proof.Machine.execEchoDeadline s
  | .drainEnd => Sys2Proof.Machine.execDrainEnd s
  | .pollPeriodExpiry => Sys2Proof.Machine.execPollPeriodExpiry s
  | .backoffExpiry entry => Sys2Proof.Machine.execBackoffExpiry entry s
  | .probeTimerExpiry entry => Sys2Proof.Machine.execProbeTimerExpiry entry s
  | .lingerExpiry => Sys2Proof.Machine.execLingerExpiry s

end Sys2Proof.Machine
end

