-- ==== Sys2Proof/Safety.lean ====
section
/-! DEFINITION. What counts as a sound state of the part: the invariants the manual states of its blocks, as
decidable predicates on plain data. -/

namespace Sys2Proof.Safety

open Sys2Proof.Machine

/-- The setup registers hold values in their ranges (R52, R76, R81, R100), and the window offset is even (R176). -/
abbrev SetupInRange (s : State) : Prop :=
  s.line.rate ≠ 0#12 ∧ s.line.guardTime ≠ 0#4 ∧ 2 ≤ s.line.gapTime.toNat ∧ 2 ≤ s.line.replyTimeout.toNat ∧
    s.table.probeInterval ≠ 0#8 ∧ s.table.probeLimit ≠ 0#8 ∧ s.table.holdBackoff ≠ 0#8 ∧
    s.host.winOffset.getLsbD 0 = false

/-- The marks are in their ranges, at or below LOW the store is RESTRAINED, and at or above HIGH it is OPEN
(R130). -/
abbrev RestraintFollowsMarks (s : State) : Prop :=
  s.store.low ≤ 510 ∧ s.store.low < s.store.high ∧ s.store.high ≤ 512 ∧
    (s.freeCount ≤ s.store.low → s.store.restraint = .restrained) ∧
    (s.store.high ≤ s.freeCount → s.store.restraint = .open)

/-- The threshold is 1 to 32; an empty queue has the flag clear and the linger timer stopped, and a queue at the
threshold has the flag set and the timer stopped (R165). -/
abbrev CoalescingFollowsCount (s : State) : Prop :=
  1 ≤ s.queue.threshold.toNat ∧ s.queue.threshold.toNat ≤ 32 ∧
    (s.queue.entries = [] → s.queue.ready = false ∧ s.queue.lingerTimer = 0#8) ∧
    (s.queue.threshold.toNat ≤ s.queue.entries.length → s.queue.ready = true ∧ s.queue.lingerTimer = 0#8)

/-- While the poll period timer runs no round is in progress (R75), and between rounds the round position is 0
(R74). -/
abbrev RoundExcludesTimer (s : State) : Prop :=
  (s.arbiter.pollTimer.running = true → s.arbiter.roundInProgress = false) ∧
    (s.arbiter.roundInProgress = false → s.arbiter.roundPosition = 0)

/-- The turn the model keeps of a close has round position 0 while no round is in progress (R63, R74, assumption 21). -/
abbrev TurnKeptSound (s : State) : Prop :=
  ∀ c ∈ s.lastClose, s.arbiter.roundInProgress = false → c.turn.roundPosition = 0

/-- Command slots in use and waiting completions never exceed 32 together (R159). -/
abbrev CommitmentBounded (s : State) : Prop := s.commitment ≤ Config.commitmentLimit

/-- The store's bytes are in canonical form and within the 512 blocks. -/
abbrev BytesCanonical (s : State) : Prop := Memory.wf s.store.bytes

/-- What an entry alone must satisfy: a VACANT one holds R1's values; any other holds an address of 1 to 62 and a
fail limit; it is WORKING exactly when its open action is present (R2); READY and WORKING stay below the fail
limit (R107); a FAILED one has no pending command (R4). -/
abbrev EntrySound (e : Entry) : Prop :=
  (e.state = .vacant → e = Entry.vacant) ∧
    (e.state ≠ .vacant →
      (∃ a ∈ e.address, addressInRange a = true) ∧ e.failLimit ≠ 0#4) ∧
    (e.state = .working ↔ e.openAction.isSome = true) ∧
    (e.state = .ready ∨ e.state = .working → e.consecFail.toNat < e.failLimit.toNat) ∧
    (e.state = .failed → e.pendingList = [])

/-- The exchange in flight engages a WORKING station exactly when it is a PROBE, and a READY one otherwise (R51),
and an ACTION exchange serves a slot (R22). -/
abbrev ExchangeSound (s : State) (x : Exchange) : Prop :=
  (match x.place with
    | .station e =>
      ((s.entry e).state = .working ∧ x.kind = .probe) ∨ ((s.entry e).state = .ready ∧ x.kind ≠ .probe)
    | .broadcast => x.kind = .broadcast) ∧
    (x.kind = .action → x.slot.isSome = true)

/-- The Station Table: every entry sound, no two non-VACANT entries with one address (R11), and the exchange in
flight sound. -/
abbrev TableSound (s : State) : Prop :=
  (∀ i, EntrySound (s.entry i)) ∧
    (∀ i j, (s.entry i).state ≠ .vacant → (s.entry j).state ≠ .vacant →
      (s.entry i).address = (s.entry j).address → i = j) ∧
    (∀ x ∈ s.exchange, ExchangeSound s x)

/-- Where the blocks are: on the free list, or in one record's chain, each in exactly one place (R117). -/
def State.blocksHeld (s : State) : List Block :=
  s.store.freeList ++ s.store.descriptors.toList.flatMap Descriptor.chain

/-- Every block is in exactly one place (R117). -/
abbrev BlocksPartitioned (s : State) : Prop := (State.blocksHeld s).Perm (List.finRange 512)

/-- A FREE descriptor holds R120's values. -/
abbrev FreeRecordsBlank (s : State) : Prop :=
  ∀ h, (s.record h).state = .free → s.record h = Descriptor.free

/-- A record holds length ÷ 32, rounded up, blocks, and at most 480 bytes (R120). -/
abbrev ChainsFit (s : State) : Prop :=
  ∀ h, (s.record h).chain.length = blocksFor (s.record h).length ∧ (s.record h).length ≤ Config.maxPayload

/-- Who holds a record: a slot one QUEUED or SENDING and no other slot the same (R127), the arrival an ARRIVING one
(R136), the Inbound List exactly the INBOUND ones, each once (R146). -/
abbrev RecordsOwned (s : State) : Prop :=
  (∀ i h, (s.slot i).bind Slot.handle = some h →
      (s.record h).state = .queued ∨ (s.record h).state = .sending) ∧
    (∀ h, (s.record h).state = .queued ∨ (s.record h).state = .sending →
      ∃ i, (s.slot i).bind Slot.handle = some h) ∧
    (∀ i j h, (s.slot i).bind Slot.handle = some h → (s.slot j).bind Slot.handle = some h → i = j) ∧
    (∀ h, (s.record h).state = .arriving ↔ s.inbound.arrival.bind Arrival.handle = some h) ∧
    (∀ h, h ∈ s.inbound.list ↔ (s.record h).state = .inbound) ∧ s.inbound.list.Nodup

/-- The Record Store: blocks partitioned, FREE descriptors blank, records owned. -/
abbrev StoreSound (s : State) : Prop := BlocksPartitioned s ∧ FreeRecordsBlank s ∧ RecordsOwned s

/-- The decoder's frame: the held pair holds the last two body bytes decoded (R93), and the body count is at most
485 (R92). -/
abbrev FrameSound (f : InFrame) : Prop :=
  (f.newer.isSome = true ↔ 1 ≤ f.count) ∧ (f.older.isSome = true ↔ 2 ≤ f.count) ∧ f.count ≤ Config.maxBody

/-- An arrival belongs to the reply being received of a POLL or ROUND_POLL (R136, R137): while it is STORING the
reply has not been restarted, its header is a DATA's, and what is stored is what has been seen, which is what the
decoder has released (R93, R138). -/
abbrev ArrivalFollowsReply (s : State) : Prop :=
  ∀ a ∈ s.inbound.arrival, ∃ x ∈ s.exchange, ∃ f, s.line.rx = .frame f ∧ f.dest = .reply ∧
    x.phase = .receiveReply ∧ (x.kind = .poll ∨ x.kind = .roundPoll) ∧
    (f.restarted = false →
      (∃ h ∈ x.header, ctrlKind h.ctrl = some .data) ∧ 3 ≤ f.count) ∧
    (a.stop = none →
      f.restarted = false ∧ a.seen = f.count - 5 ∧ ∃ h ∈ a.handle, (s.record h).length = a.seen)

/-- Records and the arrival: the store sound, every record's chain as long as its length asks, the decoder's frame
sound, and the arrival following its reply. -/
abbrev RecordsSound (s : State) : Prop :=
  StoreSound s ∧ ChainsFit s ∧ (∀ f, s.line.rx = .frame f → FrameSound f) ∧ ArrivalFollowsReply s ∧
    ∀ i, (s.entry i).inboundLimit ≤ Config.maxPayload

/-- The list a place's commands wait on. -/
def State.listOf (s : State) (p : Place) : List SlotId :=
  match p with
  | .station e => (s.entry e).pendingList
  | .broadcast => s.command.broadcastList

/-- A slot in use appears in exactly one list, that of its place, and no list holds a slot twice (R4, R156,
R160). -/
abbrev SlotsListed (s : State) : Prop :=
  (∀ i e, i ∈ (s.entry e).pendingList ↔ (s.slot i).map Slot.place = some (.station e)) ∧
    (∀ i, i ∈ s.command.broadcastList ↔ (s.slot i).map Slot.place = some .broadcast) ∧
    (∀ e, (s.entry e).pendingList.Nodup) ∧ s.command.broadcastList.Nodup

/-- No work is left waiting on a free line: with the Exchange Controller IDLE and RUN 1, no probe is due, no
command work is ready and no round work is ready (R64, R65). -/
abbrev NoWorkWaits (s : State) : Prop :=
  s.exchange = none → s.host.run = true → s.probePick = none ∧ s.commandPick = none ∧ s.roundPick = none

/-- The Station Table and the lists together. -/
abbrev ListsSound (s : State) : Prop := TableSound s ∧ SlotsListed s

/-! ### The terms the statements are made in -/

/-- The command is accepted: its effects leave the state `t`, CMD_RESULT then reports ACCEPTED with a value, and
the happening ends as every happening does (`State.finishCommand`: R64, R97, R154). -/
abbrev Accepts (c : Instr) (s t : State) (value : BitVec 6) : Prop :=
  exec c s = .next (State.finishCommand { t with command := { t.command with result := .accepted value } })

/-- The command is refused: CMD_RESULT reports the reason, nothing else changes, and the happening ends as every
happening does (R64, R97, R155). -/
abbrev Refuses (c : Instr) (s : State) (r : Reason) : Prop :=
  exec c s = .next (State.finishCommand { s with command := { s.command with result := .refused r } })

/-- The happening has the effect `t`, and ends as every happening does (R64, R97). -/
abbrev Happens (c : Instr) (s t : State) : Prop := exec c s = .next (s.finish t)

/-- The happening ends the wait for a reply with the effect `t`: the choice is made, and the report of a line that is
quiet already is left to the happening that comes next (R23, R27, R64). -/
abbrev EndsWait (c : Instr) (s t : State) : Prop := exec c s = .next (s.finishWait t)

/-- The command is accepted with the effect `t` and ends the wait for a reply in the same way (R45, R64, R154). -/
abbrev AcceptsAndEndsWait (c : Instr) (s t : State) (value : BitVec 6) : Prop :=
  exec c s = .next (State.finishCommandWait { t with command := { t.command with result := .accepted value } })

/-- A quiet line is still to be reported (R97): RESET is high, the guard timer is stopped, the receiver is in HUNT, the
transmitter is QUIET, and an exchange waits in GUARD, or in ANSWER_GUARD with its decision. -/
abbrev ReportDue (s : State) : Prop :=
  s.resetHeld = false ∧ s.line.guardTimer = 0#4 ∧ s.line.rx = .hunt ∧ s.line.tx = none ∧
    ∃ x ∈ s.exchange, x.phase = .guard ∨ (x.phase = .answerGuard ∧ x.decision.isSome = true)

/-- The latest happening was one of the line that closed the station's exchange, keeping `c`, and its choice granted the
station the exchange `x`, which still stands in GUARD (R6, R64, assumption 21). -/
abbrev GrantedAgain (s : State) (e : EntryId) (c : Close) (x : Exchange) : Prop :=
  s.lastClose = some c ∧ s.exchange = some x ∧ c.place = .station e ∧ x.place = .station e ∧ x.phase = .guard

/-- The state as the close left it before its choice granted `x`: no exchange, the arbiter's turn as it was, and a
SENDING record of the slot granted back in QUEUED (R6, assumption 21). -/
abbrev GrantTakenBack (s u : State) (c : Close) (x : Exchange) : Prop :=
  u = { s with
    exchange := none
    arbiter := { s.arbiter with
      pointer := c.turn.pointer, alternation := c.turn.alternation, roundPosition := c.turn.roundPosition }
    store := { s.store with descriptors := u.store.descriptors } } ∧
  ∀ h, u.record h = if (x.slot.bind s.slot).bind Slot.handle = some h ∧ (s.record h).state = .sending
    then { s.record h with state := .queued } else s.record h

/-- What a DETACH of the station finds (R6): taken together with the close of the station's exchange, the state that
close has left, and otherwise the state as it is. -/
abbrev DetachFinds (s : State) (e : EntryId) (u : State) : Prop :=
  ((∀ c x, ¬ GrantedAgain s e c x) ∧ u = s) ∨ ∃ c x, GrantedAgain s e c x ∧ GrantTakenBack s u c x

/-- The grant is one that a FLUSH taken together with the close does not find (R6, R57): the close is one in which the
head of the station's list completed, and the grant engages a command. -/
abbrev FlushMisses (c : Close) (x : Exchange) : Prop :=
  c.headLeft = true ∧ (x.kind = .send ∨ x.kind = .poll ∨ x.kind = .action) ∧ x.slot ≠ none

/-- What a FLUSH of the station finds (R6, R57): taken together with a close in which the head of the station's list
completed, no engaged command, and otherwise the state as it is. -/
abbrev FlushFinds (s : State) (e : EntryId) (u : State) : Prop :=
  ((∀ c x, GrantedAgain s e c x → ¬ FlushMisses c x) ∧ u = s) ∨
    ∃ c x, GrantedAgain s e c x ∧ FlushMisses c x ∧ GrantTakenBack s u c x

/-- The exchange a grant begins: attempt 1, phase GUARD, every other field absent (R24). -/
def granted (kind : ExchangeKind) (place : Place) (slot : Option SlotId) : Exchange where
  kind := kind
  place := place
  slot := slot
  attempt := 1#8
  phase := .guard
  decision := none
  outcome := none
  header := none
  firstPayload := none

/-- A probe is due for the entry (R66). -/
abbrev ProbeDue (s : State) (i : EntryId) : Prop :=
  (s.entry i).state = .working ∧ (s.entry i).probeTimer.beats = 0#8

/-- The entry is visitable by the round (R73). -/
abbrev Visitable (s : State) (i : EntryId) : Prop :=
  (s.entry i).pollMember = true ∧ (s.entry i).state = .ready ∧ (s.entry i).paused = false ∧
    (s.entry i).backoffTimer.beats = 0#8

/-- Round work is ready (R73). -/
abbrev RoundReady (s : State) : Prop :=
  s.arbiter.roundInProgress = true ∧ s.store.restraint = .open ∧
    ∃ i : EntryId, s.arbiter.roundPosition.val ≤ i.val ∧ Visitable s i

/-- The head of a list is startable: its slot is in use, and a POLL needs the store OPEN (R67). -/
abbrev Startable (s : State) (i : SlotId) : Prop :=
  ∃ x ∈ s.slot i, x.kind = .poll → s.store.restraint = .open

/-- The entry is eligible for command work (R67). -/
abbrev Eligible (s : State) (i : EntryId) : Prop :=
  (s.entry i).state = .ready ∧ (s.entry i).paused = false ∧ (s.entry i).backoffTimer.beats = 0#8 ∧
    ∃ head ∈ (s.entry i).pendingList.head?, Startable s head

/-- Place `k` of the walk is eligible for command work: an entry by R67, the broadcast list when it is not empty
(R68). -/
abbrev PlaceReady (s : State) (k : Fin 17) : Prop :=
  (∃ i : EntryId, i.val = k.val ∧ Eligible s i) ∨ (k = 16 ∧ s.command.broadcastList ≠ [])

/-- Command work is ready (R67). -/
abbrev CommandReady (s : State) : Prop := ∃ k, PlaceReady s k

/-- The completions of every command of an entry's list, in list order, each with the outcome, detail and extent
`f` gives it, and with its record's handle (R7). -/
def completionsOf (s : State) (e : EntryId) (f : SlotId → Slot → Outcome × Byte × Nat) : List Completion :=
  (s.entry e).pendingList.filterMap fun i => (s.slot i).map fun x =>
    { tag := x.tag, kind := x.kind, address := x.address, outcome := (f i x).1, attempts := x.attempts
      detail := (f i x).2.1, handle := x.handle, extent := (f i x).2.2 }

/-- What the completion of every command of an entry's list leaves, besides the entries it adds to the queue: the
slots of the list free and every other slot as it was, and the records of the list's commands READY with KEEP
clear and every other record as it was (R7, R129). -/
abbrev ListFinished (s t : State) (e : EntryId) : Prop :=
  (∀ i, t.slot i = if i ∈ (s.entry e).pendingList then none else s.slot i) ∧
    ∀ h, t.record h =
      if ∃ i ∈ (s.entry e).pendingList, (s.slot i).bind Slot.handle = some h
      then { s.record h with state := .ready, keep := false } else s.record h

/-- The blocks, their bytes, the marks and the restraint state are as they were. -/
abbrev SameBlocks (s t : State) : Prop :=
  t.store.freeList = s.store.freeList ∧ t.store.bytes = s.store.bytes ∧ t.store.low = s.store.low ∧
    t.store.high = s.store.high ∧ t.store.restraint = s.store.restraint

/-- A chain has joined the tail of the free list in one change, and the store has been evaluated against HIGH; a
chain of no blocks returns nothing (R118, R130, R131). -/
abbrev BlocksReturned (s t : State) (chain : List Block) : Prop :=
  t.store.freeList = s.store.freeList ++ chain ∧ t.store.bytes = s.store.bytes ∧ t.store.low = s.store.low ∧
    t.store.high = s.store.high ∧
    t.store.restraint =
      (if chain ≠ [] ∧ s.store.high ≤ s.store.freeList.length + chain.length then .open
        else s.store.restraint) ∧
    t.host = { s.host with
      restraintCause := s.host.restraintCause || decide (t.store.restraint ≠ s.store.restraint) }

/-- Everything outside the Record Store, the Inbound Path and the host window is as it was. -/
abbrev SameOutsideStore (s t : State) : Prop :=
  t.command = s.command ∧ t.queue = s.queue ∧ t.table = s.table ∧ t.arbiter = s.arbiter ∧
    t.exchange = s.exchange ∧ t.lastClose = s.lastClose ∧ t.line = s.line ∧ t.resetHeld = s.resetHeld ∧
    t.readData = s.readData ∧
    t.pending = s.pending

/-- A body byte as it goes out: itself, or Shift and the byte exclusive-ored with 0x0F for one of the three
reserved values (R82). -/
def onTheWire (v : Byte) : List Byte :=
  if v = 0xE0#8 ∨ v = 0xE1#8 ∨ v = 0xE2#8 then [0xE2#8, v ^^^ 0x0F#8] else [v]

/-- The characters of a frame whose body bytes before the checks are given (R82 to R84): Marker, every body byte
coded, the exclusive-or of the bytes coded, their sum plus their number coded, End. -/
def wireFrame (body : List Byte) : List Byte :=
  0xE0#8 :: body.flatMap onTheWire ++ onTheWire (body.foldr (· ^^^ ·) 0#8) ++
    onTheWire (BitVec.ofNat 8 ((body.map BitVec.toNat).sum + body.length)) ++ [0xE1#8]

/-- A frame as a Marker opens it (R91). -/
def openedFrame (dest : FrameDest) : InFrame where
  dest := dest
  count := 0
  head := []
  older := none
  newer := none
  accXor := 0#8
  accSum := 0#8
  accCount := 0#8
  shiftPending := false
  shiftError := false
  charError := false
  oversize := false
  restarted := false

/-- A frame once a body byte has been decoded and held (R92, R93): a full held pair releases its older byte into
the accumulators, and the two bytes decoded last are held. -/
def heldFrame (f : InFrame) (w : Byte) : InFrame :=
  let released : Option Byte := if f.newer.isSome then f.older else none
  { f with
    shiftPending := false
    count := f.count + 1
    head := if f.count < 3 then f.head ++ [w] else f.head
    older := if f.newer.isSome then f.newer else f.older
    newer := some w
    accXor := match released with
      | some u => f.accXor ^^^ u
      | none => f.accXor
    accSum := match released with
      | some u => f.accSum + u
      | none => f.accSum
    accCount := match released with
      | some _ => f.accCount + 1#8
      | none => f.accCount }

/-- The Completion Queue once a run of completions has joined its tail, the coalescing state evaluated at each
(R163, R165, R166): at the threshold the flag is set and the linger timer stopped, and below it the timer is
loaded with the linger time and the flag is as it was. A run of none changes nothing. -/
def queueAfter (q : CompletionQueue) (added : List Completion) : CompletionQueue :=
  if added = [] then q
  else if q.threshold.toNat ≤ q.entries.length + added.length then
    { q with entries := q.entries ++ added, ready := true, lingerTimer := 0#8 }
  else { q with entries := q.entries ++ added, lingerTimer := q.lingerTime }

/-- The completions of the marked commands that stand directly behind a head that leaves (R5). -/
def cancelledRun (s : State) (behind : List SlotId) : List Completion :=
  (behind.takeWhile s.marked).filterMap fun i => (s.slot i).map fun x =>
    { tag := x.tag, kind := x.kind, address := x.address, outcome := .cancelled, attempts := x.attempts
      detail := 0#8, handle := x.handle, extent := 0 }

/-- What the completion of the head of a station's list leaves (R5, R163): its completion and those of the marked
commands directly behind it join the queue; their slots are free and every other as it was; the records of those
behind are READY with KEEP clear and every other but the head's own as it was; no other station is reached. What it
leaves of the head's own record, of the blocks and of the station's own entry is said with each outcome. -/
abbrev HeadCompleted (s t : State) (e : EntryId) (i : SlotId) (behind : List SlotId) (c : Completion) : Prop :=
  t.queue = queueAfter s.queue (c :: cancelledRun s behind) ∧
    (∀ j, t.slot j = if j = i ∨ j ∈ behind.takeWhile s.marked then none else s.slot j) ∧
    (∀ h, (s.slot i).bind Slot.handle ≠ some h → t.record h =
      if ∃ j ∈ behind.takeWhile s.marked, (s.slot j).bind Slot.handle = some h
      then { s.record h with state := .ready, keep := false } else s.record h) ∧
    (∀ d, d ≠ e → t.entry d = s.entry d) ∧
    t.command = { s.command with slots := t.command.slots } ∧
    t.table = { s.table with entries := t.table.entries } ∧ t.arbiter = s.arbiter ∧ t.line = s.line ∧
    t.inbound = s.inbound ∧ t.lastClose = s.lastClose ∧ t.resetHeld = s.resetHeld ∧ t.readData = s.readData ∧
    t.pending = s.pending

/-- The completion of a POLL whose record has been decided on (the table of R144). -/
def decisionCompletion (y : Slot) (d : Decision) : Completion where
  tag := y.tag
  kind := y.kind
  address := y.address
  outcome := match d.verdict with
    | .accepted _ => .record
    | .long | .shortRecord => .discarded
    | .noRoom _ => .noRoom
    | .duplicate => .duplicate
  attempts := y.attempts
  detail := match d.verdict with
    | .long => 2#8
    | .shortRecord => 3#8
    | .noRoom true => 1#8
    | .noRoom false => 2#8
    | .accepted _ | .duplicate => 0#8
  handle := match d.verdict with
    | .accepted h => some h
    | .long | .shortRecord | .noRoom _ | .duplicate => none
  extent := d.payload

/-- The answered POLL in slot `i`, the head of station `e`'s list, completes with its decision, and the marked
commands behind it with it; the exchange is as it was (R41, R42, R144). -/
abbrev PollCompleted (s t : State) (e : EntryId) (i : SlotId) (behind : List SlotId) (y : Slot) (d : Decision) :
    Prop :=
  HeadCompleted s t e i behind (decisionCompletion y d) ∧
    t.entry e = { s.entry e with pendingList := behind.dropWhile s.marked } ∧
    SameBlocks s t ∧ t.host = s.host ∧ t.exchange = s.exchange

/-- The arrival, if there is one, has ended without a record: its descriptor is FREE, its chain returned, and
nothing else is changed (R143). -/
abbrev ArrivalDiscarded (s t : State) : Prop :=
  t.inbound = { s.inbound with arrival := none } ∧ t.exchange = s.exchange ∧ t.command = s.command ∧
    t.queue = s.queue ∧ t.table = s.table ∧ t.arbiter = s.arbiter ∧ t.line = s.line ∧
    t.lastClose = s.lastClose ∧ t.resetHeld = s.resetHeld ∧ t.readData = s.readData ∧ t.pending = s.pending ∧
    (s.inbound.arrival.bind Arrival.handle = none → t.store = s.store ∧ t.host = s.host) ∧
    ∀ h, s.inbound.arrival.bind Arrival.handle = some h →
      t.record h = Descriptor.free ∧ (∀ g, g ≠ h → t.record g = s.record g) ∧
      BlocksReturned s t (s.record h).chain

end Sys2Proof.Safety
end

