-- ==== Sys2Proof/Certificates/Slice0/Obligations.lean ====
section
/-! DEFINITION. The statements about the part, for the provers. A command is stated with its whole effect on the
state (`Accepts`, `Refuses`, `Happens` of Sys2Proof/Safety.lean); what a happening then ends with, the choice of
R64 and the report of R97, is `State.settle`, whose own statements come first; `State.finish` is that end, with the
model's own note of a close (assumption 21). -/

section

open Sys2Proof Sys2Proof.Machine Sys2Proof.Safety

/-! ### The queue of commands, time and the resets -/

/-- A step takes the command at the front of the queue and runs it with the queue's rest. -/
def Obligations.StepTakesTheFrontCommand : Prop :=
  ∀ (c : Instr) (rest : List Instr) (s : State),
    s.pending = c :: rest → step s = exec c { s with pending := rest }

/-- The model's choice (assumption 1): with no command waiting, a step is one character time passing, once no report
of a quiet line is due; where one is due (section 5.6) the step is that report, and the exchange leaves GUARD for
TRANSMIT or ANSWER_GUARD for ANSWER before any time passes. A character time moves no register, queue, list, record or
exchange, makes no timer run out and stops none, and ends the togetherness of assumption 21; while RESET is low it
changes nothing, and otherwise every beat timer takes one `BeatTimer.tick` and every running timer of character times
and every echo deadline counts one down, but for its last, whose end is a row of the table. A beat timer loaded with
n then reports, m character times later, the beats not yet wholly passed (section 4.1): n − m ÷ 64 for every m
below 64 × n. -/
def Obligations.AnEmptyQueueLetsTimePass : Prop :=
  (∀ s : State, s.pending = [] → ReportDue s →
      step s = .next { s.settle with lastClose := none } ∧
        ∀ x ∈ s.exchange, ∃ y ∈ s.settle.exchange, y.kind = x.kind ∧ y.place = x.place ∧ y.slot = x.slot ∧
          (x.phase = .guard → y.phase = .transmit) ∧ (x.phase = .answerGuard → y.phase = .answer)) ∧
  (∀ s : State, s.pending = [] → ¬ ReportDue s →
      ∃ t, step s = .next t ∧
        (s.resetHeld = true → t = s) ∧
        t.host = s.host ∧ t.command = s.command ∧ t.exchange = s.exchange ∧ t.store = s.store ∧
        t.inbound = s.inbound ∧ t.resetHeld = s.resetHeld ∧ t.readData = s.readData ∧ t.pending = [] ∧
        t.queue = { s.queue with lingerTimer := t.queue.lingerTimer } ∧
        (t.queue.lingerTimer = 0#8 ↔ s.queue.lingerTimer = 0#8) ∧
        t.arbiter = { s.arbiter with pollTimer := t.arbiter.pollTimer } ∧
        t.arbiter.pollTimer.running = s.arbiter.pollTimer.running ∧
        t.table = { s.table with entries := t.table.entries } ∧
        (∀ i, t.entry i = { s.entry i with
            backoffTimer := (t.entry i).backoffTimer, probeTimer := (t.entry i).probeTimer } ∧
          (t.entry i).backoffTimer.running = (s.entry i).backoffTimer.running ∧
          (t.entry i).probeTimer.running = (s.entry i).probeTimer.running) ∧
        t.line = { s.line with
          guardTimer := t.line.guardTimer, replyTimer := t.line.replyTimer, gapTimer := t.line.gapTimer
          echoList := t.line.echoList } ∧
        t.line.echoList.map EchoChar.value = s.line.echoList.map EchoChar.value ∧
        (t.line.guardTimer = 0#4 ↔ s.line.guardTimer = 0#4) ∧
        (t.line.replyTimer = 0#8 ↔ s.line.replyTimer = 0#8) ∧
        (t.line.gapTimer = 0#4 ↔ s.line.gapTimer = 0#4) ∧
        (s.resetHeld = false →
          t.lastClose = none ∧
          (∀ i, (t.entry i).backoffTimer = (s.entry i).backoffTimer.tick ∧
            (t.entry i).probeTimer = (s.entry i).probeTimer.tick) ∧
          t.arbiter.pollTimer = s.arbiter.pollTimer.tick ∧
          (2 ≤ s.line.guardTimer.toNat → t.line.guardTimer.toNat + 1 = s.line.guardTimer.toNat) ∧
          (s.line.guardTimer.toNat < 2 → t.line.guardTimer = s.line.guardTimer) ∧
          (2 ≤ s.line.replyTimer.toNat → t.line.replyTimer.toNat + 1 = s.line.replyTimer.toNat) ∧
          (s.line.replyTimer.toNat < 2 → t.line.replyTimer = s.line.replyTimer) ∧
          (2 ≤ s.line.gapTimer.toNat → t.line.gapTimer.toNat + 1 = s.line.gapTimer.toNat) ∧
          (s.line.gapTimer.toNat < 2 → t.line.gapTimer = s.line.gapTimer) ∧
          (2 ≤ s.queue.lingerTimer.toNat → t.queue.lingerTimer.toNat + 1 = s.queue.lingerTimer.toNat) ∧
          (s.queue.lingerTimer.toNat < 2 → t.queue.lingerTimer = s.queue.lingerTimer) ∧
          t.line.echoList.map EchoChar.deadline =
            s.line.echoList.map fun c => if c.deadline < 2 then 1 else c.deadline - 1)) ∧
  (∀ (n : Byte) (m : Nat), m < 64 * n.toNat →
      (BeatTimer.tick^[m] (BeatTimer.load n)).beats.toNat = n.toNat - m / 64)

/-- Every command of the table that is well formed has a next state, in every state; a term that spells another row
is refused by the model (assumption 6); and while RESET is low nothing but the pin's rising edge changes any state
(section 11.5). -/
def Obligations.EveryCommandCompletes : Prop :=
  ∀ (c : Instr) (s : State),
    (c.wellFormed = true → ∃ t, exec c s = .next t) ∧
    (c.wellFormed = false → exec c s = .refused .otherRow) ∧
    (c.wellFormed = true → c ≠ .resetRelease → s.resetHeld = true → exec c s = .next s)

/-- The two edges of RESET (section 11.5): the falling edge leaves every block in its reset state and holds it
there, every output in its reset condition and D15 to D0 undriven however the host drives the bus, and no access
is taken; the rising edge ends the hold. Of the state given, the bytes of the blocks that nothing has written
(assumption 2), the fields `readData` (assumption 3) and `lastClose` (assumption 21) and the queue of waiting commands,
which is kept (assumption 15), are the model's own. -/
def Obligations.ResetPinEdges : Prop :=
  ∀ s : State,
    (s.resetHeld = false →
      ∃ t, exec .hardwareReset s = .next t ∧
        t = { State.reset with resetHeld := true, pending := s.pending } ∧
        ∀ (driven : Option Word) (bus later : BusPins),
          t.pins driven = { intLow := false, driverEnable := false, txd := [true], data := none } ∧
          t.dataDriven driven bus later = none ∧ t.busCommand bus later = none) ∧
    exec .resetRelease s = .next { s with resetHeld := false }

/-- What hardware reset leaves (R20, R78, R102, R134, R151, R171, R185): the table, the arbiter, the line engine, the
store, the heads, the slots, the queue, the causes and every register's first value. The rest of R78 and R102: no
choice is made while RUN is 0, and the first that finds both kinds ready grants command work; what CONTROLLER_RESET
leaves in the arbiter and the line engine; and, after either reset, what the write of RUN loads, how the line's part
in progress ends and how the first character is treated. The rest of R134: the bytes of an ALLOC and of an arrival. -/
def Obligations.AfterHardwareReset : Prop :=
  -- R20
  (∀ i, State.reset.entry i = Entry.vacant ∧ Entry.vacant.state = .vacant ∧ Entry.vacant.address = none ∧
    Entry.vacant.paused = false ∧ Entry.vacant.syncNeeded = false ∧ Entry.vacant.txSeq = false ∧
    Entry.vacant.rxExpect = false ∧ Entry.vacant.consecFail = 0#4 ∧ Entry.vacant.failLimit = 0#4 ∧
    Entry.vacant.lengthMode = .any ∧ Entry.vacant.inboundLimit = 0 ∧ Entry.vacant.pollMember = false ∧
    Entry.vacant.backoffTimer.running = false ∧ Entry.vacant.probeTimer.running = false ∧
    Entry.vacant.probeCount = 0#8 ∧ Entry.vacant.openAction = none ∧ Entry.vacant.pendingList = [] ∧
    Entry.vacant.failTotal = 0#16 ∧ Entry.vacant.duplicates = 0#8 ∧ Entry.vacant.refusals = 0#8 ∧
    Entry.vacant.lastFault = .ok ∧ State.reset.engaged i = false) ∧
  State.reset.table.lostSummary = 0#16 ∧ State.reset.exchange = none ∧
  -- R78
  State.reset.arbiter = { pointer := 0, alternation := .round, roundInProgress := false, roundPosition := 0
                          pollTimer := { beats := 0#8, passed := 0 }, pollPeriod := 32#8 } ∧
  State.reset.table.holdBackoff = 4#8 ∧
  (∀ s : State, s.host.run = false → s.callChoice = s) ∧
  (∀ s : State, s.exchange = none → s.host.run = true → (∀ i, ¬ ProbeDue s i) → CommandReady s → RoundReady s →
    s.arbiter.alternation = .round →
    ∃ k, PlaceReady s k ∧
      s.callChoice.arbiter = { s.arbiter with pointer := k + 1, alternation := .command } ∧
      ∃ x ∈ s.callChoice.exchange,
        (∃ i : EntryId, i.val = k.val ∧ x.place = .station i) ∨ (k = 16 ∧ x.place = .broadcast)) ∧
  (∀ m : Nat, m < 64 * 32 → (BeatTimer.tick^[m] { beats := 32#8, passed := 0 }).beats.toNat = 32 - m / 64) ∧
  (∀ s : State, s.resetHeld = false → s.arbiter.pollTimer.beats ≠ 0#8 → Happens .pollPeriodExpiry s
    { s with arbiter := { s.arbiter with
      pollTimer := { beats := 0#8, passed := 0 }, roundInProgress := true, roundPosition := 0 } }) ∧
  -- R102
  State.reset.line =
    { tx := none, echoList := [], rx := .hunt, lineHeld := false
      guardTimer := 0#4, replyTimer := 0#8, gapTimer := 0#4
      rate := 104#12, guardTime := 2#4, gapTime := 4#4, replyTimeout := 20#8
      stray := 0#16, coding := 0#16, check := 0#16, echo := 0#16 } ∧
  State.reset.lineQuiet = true ∧
  (∀ driven, (State.reset.pins driven).txd = [true] ∧ (State.reset.pins driven).driverEnable = false) ∧
  -- R78 and R102 of CONTROLLER_RESET
  (∀ s : State, s.resetHeld = false → ∃ t, exec .controllerReset s = .next t ∧
    t.arbiter = { pointer := 0, alternation := .round, roundInProgress := false, roundPosition := 0
                  pollTimer := { beats := 0#8, passed := 0 }, pollPeriod := s.arbiter.pollPeriod } ∧
    t.table.holdBackoff = s.table.holdBackoff ∧ t.host.run = false ∧ t.exchange = none ∧
    (∀ i, t.entry i = Entry.vacant) ∧
    t.line =
      { tx := s.line.tx.map fun y => { y with stopRequested := true }
        echoList := []
        rx := if s.line.rx = .echo ∨ s.line.rx = .drain then .drain else .hunt
        lineHeld := t.line.lineHeld
        guardTimer := 0#4, replyTimer := 0#8, gapTimer := 0#4
        rate := s.line.rate, guardTime := s.line.guardTime, gapTime := s.line.gapTime
        replyTimeout := s.line.replyTimeout
        stray := 0#16, coding := 0#16, check := 0#16, echo := 0#16 }) ∧
  -- R78 and R102 after either reset
  (∀ t : State, (t = State.reset ∨ ∃ s, s.resetHeld = false ∧ exec .controllerReset s = .next t) →
    (∀ w : BitVec 15, Happens (.runStart w) t
      { t with
        host := { t.host with run := true }
        arbiter := { t.arbiter with pollTimer := { beats := t.arbiter.pollPeriod, passed := 0 } } }) ∧
    (t.line.tx ≠ none → Happens .frameSent t { t with line := { t.line with tx := none } }) ∧
    (t.line.rx = .drain → t.line.tx = none → Happens .drainEnd t { t with line := { t.line with rx := .hunt } }) ∧
    (t.line.lineHeld = false → ∀ (v : Byte) (p st : Bool),
      let heard : LineEngine := { t.line with guardTimer := t.line.guardTime, lineHeld := !st }
      Happens (.characterReceived v p st) t
        { t with line :=
          if t.line.rx = .hunt ∧ v = 0xE0#8 ∧ p = evenParity v ∧ st = true then
            { heard with gapTimer := t.line.gapTime, rx := .frame (openedFrame .stray) }
          else heard })) ∧
  -- R134, with the third column of R120
  (∀ h, State.reset.record h = { state := .free, length := 0, chain := [], origin := 0#8, keep := false }) ∧
  State.reset.store.freeList = List.finRange 512 ∧ State.reset.store.freeList.length = 512 ∧
  State.reset.store.low = 64 ∧ State.reset.store.high = 128 ∧ State.reset.store.restraint = .open ∧
  (∀ s : State, (∀ h, (s.record h).state = .free) → s.windowRead = none ∧ s.windowTarget = none) ∧
  (∀ s : State, s.resetHeld = false → (∀ h, (s.record h).state = .free) → s.store.freeList = List.finRange 512 →
    1 ≤ (s.param 2).toNat → (s.param 2).toNat ≤ 480 →
    ∃ t, Accepts .alloc s t 0#6 ∧
      (t.record 0).chain = (List.finRange 512).take (((s.param 2).toNat + 31) / 32) ∧
      ∀ b ∈ (t.record 0).chain, ∀ j : Fin 32, readByte t.store.bytes (32 * b.val + j.val) = 0#8) ∧
  (∀ (s : State) (a : Arrival) (h : Handle) (limit : Nat) (v : Byte), BytesCanonical s →
    s.store.freeList = List.finRange 512 → s.inbound.arrival = some a → a.handle = some h → a.stop = none →
    a.seen = 0 → 0 < limit →
    s.record h = { state := .arriving, length := 0, chain := [], origin := a.source, keep := false } →
    let t := s.takePayloadByte limit v
    (t.record h).chain = [0] ∧ (t.record h).length = 1 ∧ readByte t.store.bytes 0 = v) ∧
  -- R151
  State.reset.inbound.arrival = none ∧ State.reset.inbound.list = [] ∧ State.reset.causePending 4 = false ∧
  -- R171
  (∀ i, State.reset.slot i = none) ∧ State.reset.command.broadcastList = [] ∧ State.reset.commitment = 0 ∧
  State.reset.queue.entries = [] ∧ State.reset.queue.ready = false ∧ State.reset.queue.lingerTimer = 0#8 ∧
  State.reset.causePending 3 = false ∧ State.reset.lowestFreeSlot = some 0 ∧
  (∀ c : Completion, ({ State.reset.queue with entries := [c] } : CompletionQueue).evalPosting.ready = true) ∧
  -- R185
  State.reset.host.run = false ∧ State.reset.host.causeEnable = 0#5 ∧ State.reset.host.faultKind = .none ∧
  State.reset.causePending 1 = false ∧ State.reset.causePending 2 = false ∧
  State.reset.causePending 5 = false ∧ State.reset.interrupt = false ∧
  (∀ s : State, s.host.winSelect = 0#8 → (s.record 0).state = .free →
    s.windowRead = none ∧ s.windowTarget = none) ∧
  ((List.range 32).map fun k => State.reset.readRegister (BitVec.ofNat 5 k)) =
    [0x3216#16, 0#16, 0#16, 0#16, 0#16, 0#16, 0#16, 0#16, 0#16, 0#16, 0#16, 0#16, 0#16, 0#16, 0#16, 0#16,
      0#16, 0#16, 0#16, 0#16, 0#16, 0#16, 0#16, 0x0200#16, 0x0068#16, 0x0402#16, 0x0014#16, 0x0020#16,
      0x2010#16, 0x0004#16, 0x0001#16, 0#16]

/-- CONTROLLER_RESET (R170): every block as after hardware reset, but for the values kept and a transmitter in
SENDING, which finishes its character. That a stop-bit hold of the receiver ends with it is the model's reading
(assumption 10); that the bytes of the blocks, the field `readData` and the queue of waiting commands are kept, and
the field `lastClose` is not, is the model's choice (assumptions 2, 3, 15 and 21). -/
def Obligations.ControllerResetKeepsTheSetup : Prop :=
  ∀ s : State, s.resetHeld = false →
    exec .controllerReset s = .next
      { State.reset with
        host := { HostWindow.reset with causeEnable := s.host.causeEnable }
        command := { CommandUnit.reset with result := .accepted 0#6 }
        queue := { CompletionQueue.reset with
          threshold := s.queue.threshold, lingerTime := s.queue.lingerTime }
        table := { StationTable.reset with
          probeInterval := s.table.probeInterval, probeLimit := s.table.probeLimit
          holdBackoff := s.table.holdBackoff }
        arbiter := { Arbiter.reset with pollPeriod := s.arbiter.pollPeriod }
        line := { LineEngine.reset with
          tx := s.line.tx.map fun t => { t with stopRequested := true }
          rx := match s.line.rx with
            | .echo | .drain => .drain
            | .hunt | .frame _ => .hunt
          rate := s.line.rate, guardTime := s.line.guardTime, gapTime := s.line.gapTime
          replyTimeout := s.line.replyTimeout }
        store := { RecordStore.reset with
          bytes := s.store.bytes, low := s.store.low, high := s.store.high }
        readData := s.readData
        pending := s.pending }

/-! ### What every happening ends with -/

/-- What a happening ends with changes nothing while RUN is 0 on a free line, nothing while an exchange stands in
a phase that waits for no quiet line, nothing while the line is not quiet, and nothing when no work is ready and
no round is in progress (sections 4.3, 5.6). The choice ends a finished round (section 4.7): with a round in
progress, the store OPEN and no visitable entry at or above the position, round in progress is cleared, the
position is 0 and the timer is loaded unless the period is 0; with the store RESTRAINED the round waits. Said of
what a happening ends with where no other work is ready, and of the part of the choice that ends a round in every
state. -/
def Obligations.SettlingWithoutWorkAndFinishedRounds : Prop :=
  (∀ s : State, s.exchange = none → s.host.run = false → s.settle = s) ∧
  (∀ (s : State), ∀ x ∈ s.exchange, x.phase ≠ .guard → x.phase ≠ .answerGuard → s.settle = s) ∧
  (∀ (s : State), ∀ x ∈ s.exchange, s.lineQuiet = false → s.settle = s) ∧
  (∀ s : State, s.exchange = none → (∀ i, ¬ ProbeDue s i) → ¬ CommandReady s →
    s.arbiter.roundInProgress = false → s.settle = s) ∧
  (∀ s : State, s.exchange = none → s.host.run = true → (∀ i, ¬ ProbeDue s i) → ¬ CommandReady s →
    s.arbiter.roundInProgress = true →
      (s.store.restraint = .restrained → s.settle = s) ∧
      (s.store.restraint = .open → (∀ i : EntryId, s.arbiter.roundPosition.val ≤ i.val → ¬ Visitable s i) →
        s.settle = { s with arbiter := { s.arbiter with
          roundInProgress := false
          roundPosition := 0
          pollTimer := if s.arbiter.pollPeriod = 0#8 then s.arbiter.pollTimer
            else { beats := s.arbiter.pollPeriod, passed := 0 } } })) ∧
  (∀ s : State,
      (s.arbiter.roundInProgress = true → s.store.restraint = .open →
        (∀ i : EntryId, s.arbiter.roundPosition.val ≤ i.val → ¬ Visitable s i) →
        s.endFinishedRound = { s with arbiter := { s.arbiter with
          roundInProgress := false
          roundPosition := 0
          pollTimer := if s.arbiter.pollPeriod = 0#8 then s.arbiter.pollTimer
            else { beats := s.arbiter.pollPeriod, passed := 0 } } }) ∧
      (s.arbiter.roundInProgress = false ∨ s.store.restraint = .restrained ∨
        (∃ i : EntryId, s.arbiter.roundPosition.val ≤ i.val ∧ Visitable s i) →
        s.endFinishedRound = s))

/-- What a happening ends with reaches only the arbiter, where it makes a choice, the exchange, the transmission it
starts, the attempt count of the slot that the exchange entering TRANSMIT serves, the state of the record of the slot
granted, and the refusals count of the station answered REFUSE; every other part of the state is as it was. The choice
alone (`State.callChoice`), with which a happening that ends a wait for a reply ends, reaches only the arbiter, the
exchange, which it grants in GUARD, and the state of the record of the slot granted. A happening
that is no command taken through COMMAND then keeps, where it closed an exchange and the choice granted, the place of
that exchange, whether the head of its station's list left in the close, and the arbiter's turn before that choice, and
keeps nothing otherwise; a command keeps nothing. What is kept is the model's own (assumption 21). -/
def Obligations.SettlingReachesOnlyTheLine : Prop :=
  ∀ s : State,
    s.settle.host = s.host ∧ s.settle.queue = s.queue ∧ s.settle.inbound = s.inbound ∧
    s.settle.resetHeld = s.resetHeld ∧ s.settle.readData = s.readData ∧ s.settle.pending = s.pending ∧
    s.settle.lastClose = s.lastClose ∧
    s.settle.command.params = s.command.params ∧ s.settle.command.result = s.command.result ∧
    s.settle.command.broadcastList = s.command.broadcastList ∧
    (∀ i, s.settle.slot i = s.slot i ∨
      ∃ x ∈ s.settle.exchange, x.phase = .transmit ∧ x.slot = some i ∧
        s.settle.slot i = (s.slot i).map fun y => { y with attempts := satInc y.attempts }) ∧
    s.settle.table = { s.table with entries := s.settle.table.entries } ∧
    (∀ i, s.settle.entry i = s.entry i ∨
      ∃ x ∈ s.settle.exchange, x.phase = .answer ∧ x.place = .station i ∧
        (∃ d ∈ x.decision, d.verdict = .long ∨ d.verdict = .shortRecord) ∧
        s.settle.entry i = { s.entry i with refusals := satInc (s.entry i).refusals }) ∧
    SameBlocks s s.settle ∧
    (∀ h, s.settle.record h = s.record h ∨
      s.exchange = none ∧ (∃ x ∈ s.settle.exchange, (x.slot.bind s.slot).bind Slot.handle = some h) ∧
        (s.record h).state = .queued ∧ s.settle.record h = { s.record h with state := .sending }) ∧
    s.settle.line = { s.line with
      tx := s.settle.line.tx, echoList := s.settle.line.echoList, rx := s.settle.line.rx } ∧
    s.settle.arbiter.pollPeriod = s.arbiter.pollPeriod ∧
    (s.exchange ≠ none ∨ s.host.run = false → s.settle.arbiter = s.arbiter) ∧
    s.callChoice = { s with
      arbiter := s.callChoice.arbiter, exchange := s.callChoice.exchange
      store := { s.store with descriptors := s.callChoice.store.descriptors } } ∧
    (∀ h, s.callChoice.record h = s.record h ∨
      s.exchange = none ∧ (∃ x ∈ s.callChoice.exchange, (x.slot.bind s.slot).bind Slot.handle = some h) ∧
        (s.record h).state = .queued ∧ s.callChoice.record h = { s.record h with state := .sending }) ∧
    (s.callChoice.exchange = s.exchange ∨
      s.exchange = none ∧ ∃ kind place slot, s.callChoice.exchange = some (granted kind place slot)) ∧
    s.callChoice.arbiter.pollPeriod = s.arbiter.pollPeriod ∧
    (s.exchange ≠ none ∨ s.host.run = false → s.callChoice = s) ∧
    s.finishCommand = { s.settle with lastClose := none } ∧
    s.finishCommandWait = { s.callChoice with lastClose := none } ∧
    ∀ b t u : State, (t = b.finish s ∧ u = s.settle ∨ t = b.finishWait s ∧ u = s.callChoice) →
      t = { u with lastClose := t.lastClose } ∧
      (∀ x ∈ b.exchange, s.exchange = none → u.exchange ≠ none → ∃ c, t.lastClose = some c ∧
        c.place = x.place ∧
        (c.headLeft = true ↔ ∃ e, x.place = .station e ∧
          ∃ head ∈ (b.entry e).pendingList.head?, head ∉ (s.entry e).pendingList) ∧
        c.turn.pointer = s.arbiter.pointer ∧ c.turn.alternation = s.arbiter.alternation ∧
        c.turn.roundPosition = s.endFinishedRound.arbiter.roundPosition) ∧
      (b.exchange = none ∨ s.exchange ≠ none ∨ u.exchange = none → t.lastClose = none)

/-- Probes go first (section 4.4): with a probe due, the choice grants the PROBE of the lowest WORKING entry whose
probe is due, and changes nothing else but a finished round. -/
def Obligations.ProbesGoFirst : Prop :=
  ∀ (s : State) (i : EntryId), s.exchange = none → s.host.run = true → ProbeDue s i →
    (∀ j : EntryId, j.val < i.val → ¬ ProbeDue s j) →
    s.callChoice = { s.endFinishedRound with exchange := some (granted .probe (.station i) none) }

/-- Command work (sections 4.3, 4.5, 4.6): with no probe due, command work ready at place `k`, no nearer place of
the walk from the pointer ready, and round work not ready or the flag naming ROUND, the choice serves place `k`:
the flag becomes COMMAND, the pointer moves one beyond `k`, and the grant is a SYNC when sync_needed is set, else
the exchange of the head command, a SEND, POLL or ACTION one as the command is, whose QUEUED record moves to
SENDING. -/
def Obligations.CommandWorkWalksTheCircle : Prop :=
  ∀ (s : State) (d : Fin 17), s.exchange = none → s.host.run = true → (∀ i, ¬ ProbeDue s i) →
    PlaceReady s (s.arbiter.pointer + d) → (∀ e : Fin 17, e.val < d.val → ¬ PlaceReady s (s.arbiter.pointer + e)) →
    (RoundReady s → s.arbiter.alternation = .round) →
    s.callChoice.arbiter = { s.endFinishedRound.arbiter with
      pointer := s.arbiter.pointer + d + 1, alternation := .command } ∧
    s.callChoice.host = s.host ∧ s.callChoice.command = s.command ∧ s.callChoice.queue = s.queue ∧
    s.callChoice.table = s.table ∧ s.callChoice.line = s.line ∧ s.callChoice.inbound = s.inbound ∧
    SameBlocks s s.callChoice ∧
    (∀ i : EntryId, i.val = (s.arbiter.pointer + d).val → (s.entry i).syncNeeded = true →
      s.callChoice.exchange = some (granted (.sync .command) (.station i) none) ∧
      s.callChoice.store = s.store) ∧
    (∀ i : EntryId, i.val = (s.arbiter.pointer + d).val → (s.entry i).syncNeeded = false →
      ∀ head ∈ (s.entry i).pendingList.head?, ∀ x ∈ s.slot head,
        s.callChoice.exchange = some (granted x.kind.exchange (.station i) (some head)) ∧
        ∀ h, s.callChoice.record h =
          if x.handle = some h ∧ (s.record h).state = .queued then { s.record h with state := .sending }
          else s.record h) ∧
    (s.arbiter.pointer + d = 16 → ∀ head ∈ s.command.broadcastList.head?,
      s.callChoice.exchange = some (granted .broadcast .broadcast (some head)) ∧
      ∀ h, s.callChoice.record h =
        if (s.slot head).bind Slot.handle = some h ∧ (s.record h).state = .queued
        then { s.record h with state := .sending } else s.record h) ∧
    [CommandKind.send, .poll, .action].map CommandKind.exchange = [.send, .poll, .action]

/-- Round work (sections 4.3, 4.6, 4.7): with no probe due, the store OPEN, entry `i` the lowest visitable one at
or above the position, and command work not ready or the flag naming COMMAND, the choice visits entry `i`: the
flag becomes ROUND, the position moves one beyond `i`, and the grant is a SYNC of origin ROUND when sync_needed
is set, else a ROUND_POLL. -/
def Obligations.RoundWorkVisitsInOrder : Prop :=
  ∀ (s : State) (i : EntryId), s.exchange = none → s.host.run = true → (∀ j, ¬ ProbeDue s j) →
    s.arbiter.roundInProgress = true → s.store.restraint = .open →
    s.arbiter.roundPosition.val ≤ i.val → Visitable s i →
    (∀ j : EntryId, s.arbiter.roundPosition.val ≤ j.val → j.val < i.val → ¬ Visitable s j) →
    (CommandReady s → s.arbiter.alternation = .command) →
    s.callChoice = { s with
      arbiter := { s.arbiter with alternation := .round, roundPosition := i.succ }
      exchange := some (granted (if (s.entry i).syncNeeded = true then .sync .round else .roundPoll)
        (.station i) none) }

/-- While RUN is 0 no exchange begins: a command that finds the line free and leaves RUN at 0 leaves the line free
(section 2.6). -/
def Obligations.NothingIsGrantedWhileStopped : Prop :=
  ∀ (c : Instr) (s t : State),
    exec c s = .next t → s.exchange = none → t.host.run = false → t.exchange = none

/-- Whatever the command, an exchange that begins is with a station that may have it (sections 3.3, 4.4, 4.5, 4.7,
1.5.3): a PROBE with a WORKING one whose probe is due, any other with a READY one that is neither paused nor in
backoff. -/
def Obligations.GrantsGoToStationsThatMayHaveThem : Prop :=
  ∀ (c : Instr) (s t : State), exec c s = .next t → s.exchange = none →
    ∀ x ∈ t.exchange, ∀ i : EntryId, x.place = .station i →
      (x.kind = .probe ∧ ProbeDue t i) ∨
      (x.kind ≠ .probe ∧ (t.entry i).state = .ready ∧ (t.entry i).paused = false ∧
        (t.entry i).backoffTimer.beats = 0#8)

/-- No work is left waiting on a free line: an invariant of every step (section 4.3). That time passing makes no
work due is assumption 1. -/
def Obligations.NoWorkIsLeftWaiting : Prop :=
  ∀ s t : State, NoWorkWaits s → step s = .next t → NoWorkWaits t

/-! ### Line commands -/

/-- An accepted SEND or BROADCAST (section 9.2): the lowest free slot is taken with the parameters, the record
named moves from READY to QUEUED with the command's KEEP flag, the slot joins the tail of its list, and
CMD_RESULT holds the slot's number. -/
def Obligations.SendAndBroadcastTakeASlot : Prop :=
  ∀ (s : State) (h : Handle), s.resetHeld = false → (lowByte (s.param 2)).toNat = h.val →
    (s.record h).state = .ready → s.commitment < 32 →
    ∃ i : SlotId, s.slot i = none ∧ (∀ j : SlotId, j.val < i.val → s.slot j ≠ none) ∧
      (∀ e : EntryId, s.namedEntry = .ok e → (s.entry e).state ≠ .failed →
        Accepts .send s
          { s with
            command := { s.command with slots := s.command.slots.set i (some
              { kind := .send, tag := s.param 1, address := lowByte (s.param 0), place := .station e
                handle := some h, keep := (s.param 0).getLsbD 8, action := none, attempts := 0#4
                cancelMark := false }) }
            store := { s.store with descriptors := (s.store.descriptors.set h
              { s.record h with state := .queued, keep := (s.param 0).getLsbD 8 }) }
            table := { s.table with entries := (s.table.entries.set e
              { s.entry e with pendingList := (s.entry e).pendingList ++ [i] }) } }
          (BitVec.ofNat 6 i.val)) ∧
      Accepts .broadcast s
        { s with
          command := { s.command with
            slots := s.command.slots.set i (some
              { kind := .broadcast, tag := s.param 1, address := 63#8, place := .broadcast
                handle := some h, keep := (s.param 0).getLsbD 8, action := none, attempts := 0#4
                cancelMark := false })
            broadcastList := s.command.broadcastList ++ [i] }
          store := { s.store with descriptors := (s.store.descriptors.set h
            { s.record h with state := .queued, keep := (s.param 0).getLsbD 8 }) } }
        (BitVec.ofNat 6 i.val)

/-- An accepted POLL or ACTION (sections 3.2, 9.2): the lowest free slot is taken, an ACTION's with its code and
its parameter bytes up to the count, low byte of each register first; the slot joins the tail of the station's
list, and no record changes. -/
def Obligations.PollAndActionTakeASlot : Prop :=
  ∀ (s : State) (e : EntryId), s.resetHeld = false → s.namedEntry = .ok e → (s.entry e).state ≠ .failed →
    s.commitment < 32 →
    ∃ i : SlotId, s.slot i = none ∧ (∀ j : SlotId, j.val < i.val → s.slot j ≠ none) ∧
      Accepts .poll s
        { s with
          command := { s.command with slots := s.command.slots.set i (some
            { kind := .poll, tag := s.param 1, address := lowByte (s.param 0), place := .station e
              handle := none, keep := false, action := none, attempts := 0#4, cancelMark := false }) }
          table := { s.table with entries := (s.table.entries.set e
            { s.entry e with pendingList := (s.entry e).pendingList ++ [i] }) } }
        (BitVec.ofNat 6 i.val) ∧
      ((highByte (s.param 2)).toNat ≤ 6 →
        Accepts .action s
          { s with
            command := { s.command with slots := s.command.slots.set i (some
              { kind := .action, tag := s.param 1, address := lowByte (s.param 0), place := .station e
                handle := none, keep := false
                action := some
                  { code := lowByte (s.param 2)
                    params := [lowByte (s.param 3), highByte (s.param 3), lowByte (s.param 4),
                      highByte (s.param 4), lowByte (s.param 5), highByte (s.param 5)].take
                        (highByte (s.param 2)).toNat }
                attempts := 0#4, cancelMark := false }) }
            table := { s.table with entries := (s.table.entries.set e
              { s.entry e with pendingList := (s.entry e).pendingList ++ [i] }) } }
          (BitVec.ofNat 6 i.val))

/-- The checks of a line command, in their order (R157): each command is refused with the reason of the first check
that fails, and accepted when none does, whatever the station's paused flag, backoff timer, sync_needed flag and
engagement and whatever the restraint state. -/
def Obligations.LineCommandsAreChecked : Prop :=
  ∀ s : State, s.resetHeld = false →
    let a := (lowByte (s.param 0)).toNat
    let n := (lowByte (s.param 2)).toNat
    -- check 1, and check 2
    (∀ c ∈ [Instr.send, .poll, .action],
      ((a = 0 ∨ 63 ≤ a) → Refuses c s .badAddress) ∧
      (1 ≤ a → a ≤ 62 → (∀ e, (s.entry e).state = .vacant ∨ (s.entry e).address ≠ some (lowByte (s.param 0))) →
        Refuses c s .noStation) ∧
      (∀ e, s.namedEntry = .ok e → (s.entry e).state = .failed → Refuses c s .stationFailed)) ∧
    (∀ e, s.namedEntry = .ok e → (s.entry e).state ≠ .failed →
      -- check 3
      (6 < (highByte (s.param 2)).toNat → Refuses .action s .badParam) ∧
      -- check 4, for SEND
      (63 < n → Refuses .send s .badRecord) ∧
      (∀ h : Handle, h.val = n →
        ((s.record h).state = .free ∨ (s.record h).state = .arriving → Refuses .send s .badRecord) ∧
        ((s.record h).state = .filling ∨ (s.record h).state = .queued ∨ (s.record h).state = .sending ∨
          (s.record h).state = .inbound → Refuses .send s .recordBusy)) ∧
      -- check 5
      (32 ≤ s.commitment → Refuses .poll s .queueFull) ∧
      (32 ≤ s.commitment → (highByte (s.param 2)).toNat ≤ 6 → Refuses .action s .queueFull) ∧
      (∀ h : Handle, h.val = n → (s.record h).state = .ready → 32 ≤ s.commitment →
        Refuses .send s .queueFull) ∧
      -- none fails
      (s.commitment < 32 →
        (∃ t v, Accepts .poll s t v) ∧
        ((highByte (s.param 2)).toNat ≤ 6 → ∃ t v, Accepts .action s t v) ∧
        (∀ h : Handle, h.val = n → (s.record h).state = .ready → ∃ t v, Accepts .send s t v))) ∧
    -- BROADCAST: checks 4 and 5
    (63 < n → Refuses .broadcast s .badRecord) ∧
    (∀ h : Handle, h.val = n →
      ((s.record h).state = .free ∨ (s.record h).state = .arriving → Refuses .broadcast s .badRecord) ∧
      ((s.record h).state = .filling ∨ (s.record h).state = .queued ∨ (s.record h).state = .sending ∨
        (s.record h).state = .inbound → Refuses .broadcast s .recordBusy) ∧
      ((s.record h).state = .ready → 32 ≤ s.commitment → Refuses .broadcast s .queueFull) ∧
      ((s.record h).state = .ready → s.commitment < 32 → ∃ t v, Accepts .broadcast s t v))

/-- The Completion Queue is only added to at its tail, except by CQ_INFO_WRITE and the resets (section 9.3): what
it held stands at its head, unchanged and in order. -/
def Obligations.CompletionsOnlyJoinTheTail : Prop :=
  ∀ (c : Instr) (s t : State), exec c s = .next t →
    (∀ v, c ≠ .cqInfoWrite v) → c ≠ .controllerReset → c ≠ .hardwareReset →
    ∃ added, t.queue.entries = s.queue.entries ++ added

/-! ### Management commands on stations -/

/-- ATTACH (section 1.5.1): its four checks in order, and the entry an accepted one makes of the VACANT entry with
the lowest index. -/
def Obligations.AttachTakesTheLowestVacantEntry : Prop :=
  ∀ s : State, s.resetHeld = false →
    let a := lowByte (s.param 0)
    let f := lowByte (s.param 1)
    let limit := (s.param 2).toNat
    ((a.toNat = 0 ∨ 63 ≤ a.toNat) → Refuses .attach s .badAddress) ∧
    (1 ≤ a.toNat → a.toNat ≤ 62 →
      ((15 < f.toNat ∨ limit = 0 ∨ 480 < limit) → Refuses .attach s .badParam) ∧
      (f.toNat ≤ 15 → 1 ≤ limit → limit ≤ 480 →
        ((∃ e, (s.entry e).state ≠ .vacant ∧ (s.entry e).address = some a) →
          Refuses .attach s .duplicateAddress) ∧
        ((∀ e, (s.entry e).state = .vacant ∨ (s.entry e).address ≠ some a) →
          ((∀ e, (s.entry e).state ≠ .vacant) → Refuses .attach s .tableFull) ∧
          (∀ e : EntryId, (s.entry e).state = .vacant →
            (∀ j : EntryId, j.val < e.val → (s.entry j).state ≠ .vacant) →
            Accepts .attach s
              { s with table := { s.table with entries := (s.table.entries.set e
                { state := .ready, address := some a, paused := false, syncNeeded := true, txSeq := false
                  rxExpect := false, consecFail := 0#4
                  failLimit := if f.toNat = 0 then 3#4 else f.setWidth 4
                  lengthMode := if (s.param 1).getLsbD 8 then .exact else .any
                  inboundLimit := limit, pollMember := (s.param 1).getLsbD 9
                  backoffTimer := .stopped, probeTimer := .stopped, probeCount := 0#8, openAction := none
                  pendingList := [], failTotal := 0#16, duplicates := 0#8, refusals := 0#8
                  lastFault := .ok }) } }
              (BitVec.ofNat 6 e.val)))))

/-- DETACH (sections 1.5.2, 1.4 and 1.3.1): refused ENGAGED while the exchange in flight is with the station,
and otherwise accepted: the entry becomes VACANT, every command of its list completes in list order, the open
action DETACHED with the probe count, a marked one CANCELLED, any other DETACHED; the coalescing state is
evaluated at each posting, the records of the list's commands are READY, and nothing else changes. Taken together
with a happening of the line that closes the station's exchange, the close first, it is accepted though the close's
choice has granted the station again (section 1.3.1); that a command directly behind the close is taken together with it
is the model's reading (assumption 21). -/
def Obligations.DetachFinishesTheStation : Prop :=
  ∀ (b : State) (e : EntryId), b.resetHeld = false → b.namedEntry = .ok e →
    ((∃ x ∈ b.exchange, x.place = .station e) → (∀ c x, ¬ GrantedAgain b e c x) → Refuses .detach b .engaged) ∧
    (∀ s, DetachFinds b e s → (∀ x ∈ s.exchange, x.place ≠ .station e) →
      ∃ t, Accepts .detach b t 0#6 ∧ t.entry e = Entry.vacant ∧
      (ListsSound s →
        t.queue = queueAfter s.queue (completionsOf s e (fun i x =>
          if (s.entry e).openAction = some i then (.detached, 0#8, (s.entry e).probeCount.toNat)
          else if x.cancelMark = true then (.cancelled, 0#8, 0) else (.detached, 0#8, 0))) ∧
        ListFinished s t e ∧ (∀ j, j ≠ e → t.entry j = s.entry j) ∧ SameBlocks s t ∧
        t.table.lostSummary = s.table.lostSummary ∧ t.inbound = s.inbound ∧ t.host = s.host ∧
        t.exchange = s.exchange ∧ t.line = s.line ∧ t.arbiter = s.arbiter ∧
        t.command = { s.command with slots := t.command.slots } ∧
        t.table = { s.table with entries := t.table.entries } ∧
        t.lastClose = s.lastClose ∧ t.resetHeld = s.resetHeld ∧ t.readData = s.readData ∧ t.pending = s.pending))

/-- PAUSE, RESUME and REVIVE (sections 1.5.3, 1.5.4): the one flag set or cleared in every state of the station; a
FAILED station READY again, with consec_fail and the probe count 0, sync_needed set and the backoff timer stopped;
REVIVE of a station not FAILED refused BAD_STATE. The address every management command but ATTACH names (section
1.2) is the low byte of PARAM0, refused BAD_ADDRESS outside 1 to 62 and NO_STATION when no entry that is not VACANT
holds it; the entry found otherwise holds the address. -/
def Obligations.AddressesPauseResumeRevive : Prop :=
  (∀ (s : State) (e : EntryId), s.resetHeld = false → s.namedEntry = .ok e →
      Accepts .pause s
        { s with table := { s.table with entries := s.table.entries.set e { s.entry e with paused := true } } } 0#6 ∧
      Accepts .resume s
        { s with table := { s.table with entries := s.table.entries.set e { s.entry e with paused := false } } } 0#6 ∧
      ((s.entry e).state = .failed →
        Accepts .revive s
          { s with table := { s.table with entries := s.table.entries.set e { s.entry e with
            state := .ready, consecFail := 0#4, syncNeeded := true
            backoffTimer := { beats := 0#8, passed := 0 }, probeCount := 0#8 } } } 0#6) ∧
      ((s.entry e).state ≠ .failed → Refuses .revive s .badState)) ∧
  (∀ s : State,
      let a := lowByte (s.param 0)
      (s.resetHeld = false →
        ∀ c ∈ [Instr.detach, .pause, .resume, .revive, .flush],
          ((a.toNat = 0 ∨ 63 ≤ a.toNat) → Refuses c s .badAddress) ∧
          (1 ≤ a.toNat → a.toNat ≤ 62 → (∀ e, (s.entry e).state = .vacant ∨ (s.entry e).address ≠ some a) →
            Refuses c s .noStation)) ∧
      (∀ e, s.namedEntry = .ok e → (s.entry e).state ≠ .vacant ∧ (s.entry e).address = some a) ∧
      (∀ e, 1 ≤ a.toNat → a.toNat ≤ 62 → (s.entry e).state ≠ .vacant → (s.entry e).address = some a →
        ∃ e', s.namedEntry = .ok e'))

/-- FLUSH (section 1.5.5): with the head spared, engaged or the open action, every command behind it is marked and
nothing completes; with no command spared every command completes CANCELLED in list order; the station's entry keeps
everything but its list, and nothing but the queue, the list, its slots and their records changes. Taken together with a
close in which the head of the list completed, the close first, as with the DONE that ends an action, it finds no
engaged command and cancels the whole list, though the close's choice has granted the next head (sections 1.3.1, 3.5);
after any other close it spares the command granted; that a command directly behind the close is taken together with it
is the model's reading (assumption 21). -/
def Obligations.FlushCancelsOrMarks : Prop :=
  ∀ (b s : State) (e : EntryId), b.resetHeld = false → b.namedEntry = .ok e → FlushFinds b e s → ListsSound s →
    (∀ head ∈ (s.entry e).pendingList.head?,
      ((∃ x ∈ s.exchange, (x.kind = .send ∨ x.kind = .poll ∨ x.kind = .action) ∧ x.slot = some head) ∨
        (s.entry e).openAction = some head) →
      ∃ t, Accepts .flush b t 0#6 ∧ t = { s with command := t.command } ∧
        t.command = { s.command with slots := t.command.slots } ∧
        ∀ i, t.slot i = if i ∈ (s.entry e).pendingList.tail
          then (s.slot i).map fun x => { x with cancelMark := true } else s.slot i) ∧
    ((∀ head ∈ (s.entry e).pendingList.head?,
        (∀ x ∈ s.exchange, (x.kind = .send ∨ x.kind = .poll ∨ x.kind = .action) → x.slot ≠ some head) ∧
        (s.entry e).openAction ≠ some head) →
      ∃ t, Accepts .flush b t 0#6 ∧ t.entry e = { s.entry e with pendingList := [] } ∧
        t.queue = queueAfter s.queue (completionsOf s e (fun _ _ => (.cancelled, 0#8, 0))) ∧
        ListFinished s t e ∧ (∀ j, j ≠ e → t.entry j = s.entry j) ∧ SameBlocks s t ∧
        t.table.lostSummary = s.table.lostSummary ∧ t.inbound = s.inbound ∧ t.host = s.host ∧
        t.exchange = s.exchange ∧ t.line = s.line ∧ t.arbiter = s.arbiter ∧
        t.command = { s.command with slots := t.command.slots } ∧
        t.table = { s.table with entries := t.table.entries } ∧
        t.lastClose = s.lastClose ∧ t.resetHeld = s.resetHeld ∧ t.readData = s.readData ∧ t.pending = s.pending)

/-- STATION_QUERY (sections 1.6 and 11.4): refused BAD_PARAM for an index above 15, and otherwise each field of the
entry stands in its place in PARAM0 to PARAM5, an absent one as 0, and nothing else changes. The codes of the
station states and length modes are section 11.4's, and those of the attempt outcomes R103's, 0 to 11. -/
def Obligations.StationQueryReportsTheEntry : Prop :=
  [StationState.vacant, .ready, .working, .failed].map StationState.code = [0#2, 1#2, 2#2, 3#2] ∧
  [LengthMode.any, .exact].map LengthMode.code = [0#1, 1#1] ∧
  [AttemptOutcome.ok, .noReply, .gap, .coding, .short, .check, .wrongDest, .wrongSource, .badReply, .naked, .echo,
    .aborted].map AttemptOutcome.code = (List.range 12).map (BitVec.ofNat 4) ∧
  ∀ s : State, s.resetHeld = false →
    (15 < (lowByte (s.param 0)).toNat → Refuses .stationQuery s .badParam) ∧
    ∀ e : EntryId, e.val = (lowByte (s.param 0)).toNat →
      ∃ p : Vector Word 6, Accepts .stationQuery s { s with command := { s.command with params := p } } 0#6 ∧
        p[0].extractLsb' 0 2 = (s.entry e).state.code ∧ p[0].getLsbD 2 = (s.entry e).paused ∧
        p[0].getLsbD 3 = (s.entry e).syncNeeded ∧ p[0].getLsbD 4 = (s.entry e).pollMember ∧
        p[0].extractLsb' 5 1 = (s.entry e).lengthMode.code ∧ p[0].getLsbD 6 = (s.entry e).rxExpect ∧
        p[0].extractLsb' 7 4 = (s.entry e).lastFault.code ∧
        (p[0].extractLsb' 11 5).toNat =
          (if (s.entry e).state = .working then ((s.entry e).openAction.map Fin.val).getD 0 else 0) ∧
        (p[1].extractLsb' 0 9).toNat = (s.entry e).inboundLimit % 512 ∧
        p[1].extractLsb' 9 6 = ((s.entry e).address.getD 0#8).setWidth 6 ∧
        p[1].getLsbD 15 = (s.entry e).txSeq ∧
        p[2].extractLsb' 0 4 = (s.entry e).consecFail ∧ p[2].extractLsb' 4 4 = (s.entry e).failLimit ∧
        highByte p[2] = (s.entry e).probeCount ∧ lowByte p[3] = (s.entry e).backoffTimer.beats ∧
        highByte p[3] = (s.entry e).probeTimer.beats ∧ lowByte p[4] = (s.entry e).duplicates ∧
        highByte p[4] = (s.entry e).refusals ∧ p[5] = (s.entry e).failTotal

/-! ### The line, the counters and the codes -/

/-- LINE_QUERY (sections 9.5 and 11.4): view 0 puts each field of the line's state in its place, an absent one as
R188 says, with the codes of section 11.4's table; view 1 the four counters; any other view is refused BAD_PARAM;
nothing else changes. -/
def Obligations.LineQueryReportsTheLine : Prop :=
  [Phase.guard, .transmit, .awaitReply, .receiveReply, .answerGuard, .answer].map Phase.code =
    [1#3, 2#3, 3#3, 4#3, 5#3, 6#3] ∧
  (∀ o, [ExchangeKind.send, .poll, .roundPoll, .sync o, .broadcast, .action, .probe].map ExchangeKind.code =
    [1#3, 2#3, 3#3, 4#3, 5#3, 6#3, 7#3]) ∧
  (∀ i, (Place.station i).code.toNat = i.val) ∧ Place.broadcast.code = 16#5 ∧
  (∀ f, [Receiver.hunt, .frame f, .echo, .drain].map Receiver.code = [0#2, 1#2, 2#2, 3#2]) ∧
  [Work.command, .round].map Work.code = [0#1, 1#1] ∧
  [AttemptOutcome.ok, .noReply, .gap, .coding, .short, .check, .wrongDest, .wrongSource, .badReply, .naked, .echo,
    .aborted].map AttemptOutcome.code = (List.range 12).map (BitVec.ofNat 4) ∧
  ∀ s : State, s.resetHeld = false →
    (2 ≤ (lowByte (s.param 0)).toNat → Refuses .lineQuery s .badParam) ∧
    ((lowByte (s.param 0)).toNat = 1 →
      Accepts .lineQuery s { s with command := { s.command with
        params := #v[s.line.stray, s.line.coding, s.line.check, s.line.echo, 0#16, 0#16] } } 0#6) ∧
    ((lowByte (s.param 0)).toNat = 0 →
      ∃ p : Vector Word 6, Accepts .lineQuery s { s with command := { s.command with params := p } } 0#6 ∧
        (∀ x ∈ s.exchange,
          p[0].extractLsb' 0 3 = x.phase.code ∧ p[0].extractLsb' 3 3 = x.kind.code ∧
          p[0].extractLsb' 6 5 = x.place.code ∧ (x.kind = .sync .round ↔ p[0].getLsbD 14 = true) ∧
          lowByte p[1] = x.attempt ∧ p[5].extractLsb' 0 4 = (x.outcome.map AttemptOutcome.code).getD 15#4) ∧
        (s.exchange = none →
          p[0].extractLsb' 0 6 = 0#6 ∧ p[0].extractLsb' 6 5 = 31#5 ∧ p[0].getLsbD 14 = false ∧
          lowByte p[1] = 0#8 ∧ p[5].extractLsb' 0 4 = 15#4) ∧
        p[0].getLsbD 11 = s.line.tx.isSome ∧ p[0].extractLsb' 12 2 = s.line.rx.code ∧
        p[0].getLsbD 15 = false ∧ highByte p[1] = s.arbiter.pollTimer.beats ∧
        (p[2].extractLsb' 0 5).toNat = s.arbiter.pointer.val ∧
        p[2].extractLsb' 5 1 = s.arbiter.alternation.code ∧ p[2].getLsbD 6 = s.arbiter.roundInProgress ∧
        (highByte p[2]).toNat = s.arbiter.roundPosition.val ∧ p[2].getLsbD 7 = false ∧
        (lowByte p[3]).toNat = s.slotsInUse ∧ (highByte p[3]).toNat = s.queue.entries.length % 64 ∧
        p[4].toNat = s.inbound.list.length % 128 ∧ p[5].extractLsb' 4 12 = 0#12)

/-- CLEAR_COUNTERS (R169): the four line-wide counters and every entry's fail_total, duplicates and refusals are 0,
and nothing else changes. -/
def Obligations.ClearCountersClearsTheCounters : Prop :=
  ∀ s : State, s.resetHeld = false →
    Accepts .clearCounters s
      { s with
        line := { s.line with stray := 0#16, coding := 0#16, check := 0#16, echo := 0#16 }
        table := { s.table with entries := s.table.entries.map fun e =>
          { e with failTotal := 0#16, duplicates := 0#8, refusals := 0#8 } } } 0#6

/-- LINE_ABORT (section 2.6): always accepted; in IDLE it changes nothing, and otherwise it ends the exchange at
once, sets the station's sync_needed and changes no counter, posts nothing, puts a SENDING record back to QUEUED,
and does on the line what the phase asks: in RECEIVE_REPLY the arrival is discarded, its record FREE and its blocks
returned, whatever command the exchange serves. Where it ends a wait for a reply, the happening ends with the choice,
and the report of a line that is quiet already comes next, so that a reply that then arrives is stray; that the
report is a happening of its own there is the model's reading (assumption 22). Taken together with the happening that
closes the exchange, the close first, it finds IDLE and changes nothing, though the close's choice has granted; that a
LINE_ABORT directly behind the close is taken together with it is the model's reading (assumption 21). -/
def Obligations.AbortEndsTheExchange : Prop :=
  ∀ s : State, s.resetHeld = false →
    (s.exchange = none → Accepts .lineAbort s s 0#6) ∧
    (∀ c ∈ s.lastClose, Accepts .lineAbort s s 0#6) ∧
    ∀ x ∈ s.exchange, s.lastClose = none → ∃ t,
      (x.phase = .awaitReply ∨ x.phase = .receiveReply → AcceptsAndEndsWait .lineAbort s t 0#6) ∧
      (x.phase ≠ .awaitReply → x.phase ≠ .receiveReply → Accepts .lineAbort s t 0#6) ∧
      t.exchange = none ∧ t.queue = s.queue ∧
      t.command = s.command ∧ t.arbiter = s.arbiter ∧
      t.host.run = s.host.run ∧ t.host.stationLost = s.host.stationLost ∧
      t.table = { s.table with entries := t.table.entries } ∧
      t.lastClose = s.lastClose ∧ t.resetHeld = s.resetHeld ∧ t.readData = s.readData ∧ t.pending = s.pending ∧
      (∀ i, t.entry i = if x.place = .station i then { s.entry i with syncNeeded := true } else s.entry i) ∧
      (x.phase ≠ .receiveReply →
        SameBlocks s t ∧ t.host = s.host ∧ t.inbound = s.inbound ∧
        ∀ h, t.record h = if (x.slot.bind s.slot).bind Slot.handle = some h ∧ (s.record h).state = .sending
          then { s.record h with state := .queued } else s.record h) ∧
      (x.phase = .guard ∨ x.phase = .answerGuard → t.line = s.line ∧ t.inbound = s.inbound) ∧
      (x.phase = .awaitReply → t.line = { s.line with replyTimer := 0#8 } ∧ t.inbound = s.inbound) ∧
      (x.phase = .transmit ∨ x.phase = .answer → s.line.rx = .echo →
        t.line = { s.line with
          tx := s.line.tx.map fun y => { y with stopRequested := true }, echoList := [], rx := .drain } ∧
        t.inbound = s.inbound) ∧
      (x.phase = .receiveReply →
        t.inbound = { s.inbound with arrival := none } ∧
        (∀ h, t.record h =
          if s.inbound.arrival.bind Arrival.handle = some h then Descriptor.free
          else if (x.slot.bind s.slot).bind Slot.handle = some h ∧ (s.record h).state = .sending
          then { s.record h with state := .queued } else s.record h) ∧
        (∀ h, s.inbound.arrival.bind Arrival.handle = some h → BlocksReturned s t (s.record h).chain) ∧
        (s.inbound.arrival.bind Arrival.handle = none → SameBlocks s t ∧ t.host = s.host) ∧
        (∀ f, s.line.rx = .frame f → t.line = { s.line with rx := .frame { f with dest := .stray } }))

/-- A write of COMMAND with a value of 0 or of 21 to 65,535 is refused BAD_CODE (section 11.3); a write of a
PARAM register stores the value and nothing else; a write of an ignored register changes nothing (section 10.1).
The PARAM registers read back, and CMD_RESULT (sections 9.1, 11.1) reads with its status in bits 1 to 0, its
reason's code in bits 7 to 4 and its value in bits 13 to 8, every other bit 0. -/
def Obligations.OtherWritesStoreOrChangeNothing : Prop :=
  (∀ s : State, s.resetHeld = false →
    (∀ code : Word, code = 0#16 ∨ 21 ≤ code.toNat →
      commandOfWrite 6#5 code = .badCodeCommand code ∧ Refuses (.badCodeCommand code) s .badCode) ∧
    (∀ (i : Fin 6) (v : Word),
      Happens (.otherRegisterWrite (BitVec.ofNat 5 (8 + i.val)) v) s
        { s with command := { s.command with params := s.command.params.set i v } }) ∧
    (∀ o ∈ [0#5, 2#5, 3#5, 7#5, 14#5, 16#5, 17#5, 18#5, 19#5, 23#5], ∀ v : Word,
      Happens (.otherRegisterWrite o v) s s)) ∧
  (∀ s : State,
    (∀ i : Fin 6, s.readRegister (BitVec.ofNat 5 (8 + i.val)) = s.param i) ∧
    (s.command.result = .none → s.readRegister 7#5 = 0#16) ∧
    (∀ v, s.command.result = .accepted v →
      (s.readRegister 7#5).extractLsb' 0 8 = 0x01#8 ∧ (s.readRegister 7#5).extractLsb' 8 6 = v ∧
      (s.readRegister 7#5).extractLsb' 14 2 = 0#2) ∧
    (∀ r, s.command.result = .refused r →
      (s.readRegister 7#5).extractLsb' 0 4 = 0x2#4 ∧ (s.readRegister 7#5).extractLsb' 4 4 = r.code ∧
      (s.readRegister 7#5).extractLsb' 8 8 = 0#8)) ∧
  [Reason.badCode, .badAddress, .badParam, .noStation, .duplicateAddress, .tableFull, .stationFailed, .queueFull,
    .badRecord, .recordBusy, .noHandle, .noBlocks, .engaged, .badState, .emptyList].map Reason.code =
    (List.range 15).map fun k => BitVec.ofNat 4 (k + 1)

/-- Every bus write is exactly one well-formed command, and that command's write is it again: every offset and
every value (section 10.1). While RESET is high a write is taken at the rising edge of WR and a read at the
falling edge of RD, each while CS is low and the other strobe inactive; a read of WIN_DATA alone is a command;
with both strobes active, with CS high, or while RESET is low, no access is one; and D15 to D0 are driven only
while a read access lasts, with the value the register has when the access is taken, at RD's fall, whatever state
follows (sections 10.1, 11.5). IDENT reads 0x3216 and CAUSE_ACK and COMMAND read 0 in every state, and WIN_DATA
presents the word its access is served with. That the offset and the word are those standing before the edge, that
two strobes changing at once are no access, that a CS which falls with RD or rises with WR is in time, and the
field `readData`, are the model's (assumptions 3 and 4). -/
def Obligations.BusWritesAndCommandsAgree : Prop :=
  (∀ (o : BitVec 5) (v : Word),
    (commandOfWrite o v).wellFormed = true ∧ busWriteOf (commandOfWrite o v) = some (o, v)) ∧
  (∀ (s : State) (before after : BusPins),
    (s.resetHeld = true → s.busCommand before after = none) ∧
    (before.csLow = false → after.csLow = false → s.busCommand before after = none) ∧
    (before.rdLow = true → before.wrLow = true → s.busCommand before after = none) ∧
    (after.rdLow = true → after.wrLow = true → s.busCommand before after = none) ∧
    (before.rdLow = after.rdLow → before.wrLow = after.wrLow → s.busCommand before after = none) ∧
    (s.resetHeld = false →
      (before.csLow = true →
        before.wrLow = true → after.wrLow = false → before.rdLow = false → after.rdLow = false →
        s.busCommand before after = some (commandOfWrite before.offset before.data)) ∧
      (after.csLow = true → before.rdLow = false → after.rdLow = true → before.wrLow = false → after.wrLow = false →
        s.busCommand before after = if before.offset = 22#5 then some .winDataRead else none))) ∧
  (∀ (s : State) (driven : Option Word) (before after : BusPins),
    (s.resetHeld = true ∨ after.csLow = false ∨ after.rdLow = false ∨ after.wrLow = true →
      s.dataDriven driven before after = none) ∧
    (s.resetHeld = false → after.csLow = true → after.rdLow = true → after.wrLow = false →
      (before.rdLow = false → before.wrLow = false →
        s.dataDriven driven before after = some (s.readRegister before.offset)) ∧
      (before.rdLow = true → s.dataDriven driven before after = driven)) ∧
    (before.rdLow = false → after.rdLow = true → before.wrLow ≠ after.wrLow → s.busCommand before after = none) ∧
    (s.pins driven).data = (if s.resetHeld = true then none else driven)) ∧
  (∀ s : State, s.readRegister 0#5 = 0x3216#16 ∧ s.readRegister 5#5 = 0#16 ∧ s.readRegister 6#5 = 0#16 ∧
    (s.resetHeld = false → ∃ t, Happens .winDataRead s t ∧ t.readData = s.readRegister 22#5))

/-! ### Records and the store -/

/-- ALLOC (R123): its three checks in order, and an accepted one's descriptor, blocks, zeroed bytes, free count and
restraint; every other record, every byte of another block and every other part of the state are as they were. -/
def Obligations.AllocTakesTheFirstBlocks : Prop :=
  ∀ s : State, s.resetHeld = false →
    let n := (s.param 2).toNat
    let b := (n + 31) / 32
    ((n = 0 ∨ 480 < n) → Refuses .alloc s .badParam) ∧
    (1 ≤ n → n ≤ 480 →
      ((∀ h, (s.record h).state ≠ .free) → Refuses .alloc s .noHandle) ∧
      (∀ h : Handle, (s.record h).state = .free → (∀ g : Handle, g.val < h.val → (s.record g).state ≠ .free) →
        (s.store.freeList.length < b → Refuses .alloc s .noBlocks) ∧
        (b ≤ s.store.freeList.length →
          ∃ t, Accepts .alloc s t (BitVec.ofNat 6 h.val) ∧
            t.record h = { state := .filling, length := n, chain := s.store.freeList.take b, origin := 0#8
                           keep := false } ∧
            (∀ g, g ≠ h → t.record g = s.record g) ∧
            t.store.freeList = s.store.freeList.drop b ∧
            (∀ a : Nat, a / 32 ∈ (s.store.freeList.take b).map Fin.val → readByte t.store.bytes a = 0#8) ∧
            (∀ a : Nat, a / 32 ∉ (s.store.freeList.take b).map Fin.val →
              readByte t.store.bytes a = readByte s.store.bytes a) ∧
            t.store.low = s.store.low ∧ t.store.high = s.store.high ∧
            t.store.restraint =
              (if s.store.freeList.length - b ≤ s.store.low then .restrained else s.store.restraint) ∧
            t.host = { s.host with
              restraintCause := s.host.restraintCause || decide (t.store.restraint ≠ s.store.restraint) } ∧
            t.inbound = s.inbound ∧ SameOutsideStore s t)))

/-- SEAL and FREE (section 7.3): the handles and states each refuses, the one state a SEAL changes, and the
blocks a FREE returns. -/
def Obligations.SealAndFreeJudgeTheRecord : Prop :=
  ∀ s : State, s.resetHeld = false →
    let n := (lowByte (s.param 2)).toNat
    (63 < n → Refuses .sealRecord s .badRecord ∧ Refuses .free s .badRecord) ∧
    ∀ h : Handle, h.val = n →
      ((s.record h).state = .free ∨ (s.record h).state = .arriving →
        Refuses .sealRecord s .badRecord ∧ Refuses .free s .badRecord) ∧
      ((s.record h).state = .queued ∨ (s.record h).state = .sending ∨ (s.record h).state = .inbound →
        Refuses .sealRecord s .recordBusy ∧ Refuses .free s .recordBusy) ∧
      ((s.record h).state = .ready → Refuses .sealRecord s .recordBusy) ∧
      ((s.record h).state = .filling →
        Accepts .sealRecord s
          { s with store := { s.store with
            descriptors := (s.store.descriptors.set h { s.record h with state := .ready }) } } 0#6) ∧
      ((s.record h).state = .filling ∨ (s.record h).state = .ready →
        ∃ t, Accepts .free s t 0#6 ∧ t.record h = Descriptor.free ∧
          (∀ g, g ≠ h → t.record g = s.record g) ∧ BlocksReturned s t (s.record h).chain ∧
          t.inbound = s.inbound ∧ SameOutsideStore s t)

/-- RELEASE (section 8.3) and SET_MARKS (section 7.5): the head of the Inbound List freed, or EMPTY_LIST; both
marks taken and the state evaluated against them, or BAD_PARAM. IN_HEAD and IN_LENGTH (sections 8.3, 11.1)
present the head of the list, or read 0 while it is empty, and FREE_BLOCKS reads the free count. -/
def Obligations.ReleaseAndSetMarks : Prop :=
  (∀ s : State, s.resetHeld = false →
    let low := (s.param 0).toNat
    let high := (s.param 1).toNat
    (s.inbound.list = [] → Refuses .release s .emptyList) ∧
    (∀ h rest, s.inbound.list = h :: rest →
      ∃ t, Accepts .release s t 0#6 ∧ t.inbound = { s.inbound with list := rest } ∧
        t.record h = Descriptor.free ∧ (∀ g, g ≠ h → t.record g = s.record g) ∧
        BlocksReturned s t (s.record h).chain ∧ SameOutsideStore s t) ∧
    ((510 < low ∨ high ≤ low ∨ 512 < high) → Refuses .setMarks s .badParam) ∧
    (low ≤ 510 → low < high → high ≤ 512 →
      ∃ t, Accepts .setMarks s t 0#6 ∧ t.store.low = low ∧ t.store.high = high ∧
        t.store.restraint = (if s.store.freeList.length ≤ low then .restrained
          else if high ≤ s.store.freeList.length then .open else s.store.restraint) ∧
        t.host = { s.host with
          restraintCause := s.host.restraintCause || decide (t.store.restraint ≠ s.store.restraint) } ∧
        t.store.descriptors = s.store.descriptors ∧ t.store.freeList = s.store.freeList ∧
        t.store.bytes = s.store.bytes ∧ t.inbound = s.inbound ∧ SameOutsideStore s t)) ∧
  (∀ s : State,
    (s.readRegister 23#5).toNat = s.store.freeList.length % 65536 ∧
    (s.inbound.list = [] → s.readRegister 18#5 = 0#16 ∧ s.readRegister 19#5 = 0#16) ∧
    (∀ h rest, s.inbound.list = h :: rest →
      (s.readRegister 18#5).getLsbD 0 = true ∧ ((s.readRegister 18#5).extractLsb' 1 6).toNat = h.val ∧
      (s.readRegister 18#5).getLsbD 7 = false ∧
      (s.readRegister 18#5).extractLsb' 8 6 = (s.record h).origin.setWidth 6 ∧
      (s.readRegister 18#5).extractLsb' 14 2 = 0#2 ∧
      (s.readRegister 19#5).toNat = (s.record h).length % 512))

/-! ### The host window -/

/-- Writes of CONTROL (section 10.2) and POLL_TIME (section 4.7): RUN takes the bit, the poll period timer is
loaded as RUN becomes 1 and as a period is written, under their conditions, and a period of 0 stops it. CONTROL,
POLL_TIME and STATUS (sections 10.2, 11.1) read their fields in their places and 0 elsewhere. -/
def Obligations.RunAndPollTime : Prop :=
  (∀ s : State, s.resetHeld = false →
    (∀ w : BitVec 15,
      (s.host.run = true → Happens (.runStart w) s s) ∧
      (s.host.run = false → Happens (.runStart w) s
        { s with
          host := { s.host with run := true }
          arbiter := { s.arbiter with pollTimer :=
            if s.arbiter.roundInProgress = false ∧ s.arbiter.pollTimer.beats = 0#8 ∧ s.arbiter.pollPeriod ≠ 0#8
            then { beats := s.arbiter.pollPeriod, passed := 0 } else s.arbiter.pollTimer } }) ∧
      Happens (.runStop w) s { s with host := { s.host with run := false } }) ∧
    ∀ v : Word,
      (lowByte v = 0#8 → Happens (.pollTimeWrite v) s
        { s with arbiter := { s.arbiter with
          pollPeriod := 0#8, pollTimer := { beats := 0#8, passed := 0 } } }) ∧
      (lowByte v ≠ 0#8 → Happens (.pollTimeWrite v) s
        { s with arbiter := { s.arbiter with
          pollPeriod := lowByte v
          pollTimer :=
            if s.host.run = true ∧ s.arbiter.roundInProgress = false ∧ s.arbiter.pollTimer.beats = 0#8
            then { beats := lowByte v, passed := 0 } else s.arbiter.pollTimer } })) ∧
  (∀ s : State,
    s.readRegister 1#5 = (BitVec.ofBool s.host.run).setWidth 16 ∧
    s.readRegister 27#5 = s.arbiter.pollPeriod.setWidth 16 ∧
    (s.readRegister 2#5).getLsbD 0 = s.host.run ∧ (s.readRegister 2#5).getLsbD 1 = s.exchange.isSome ∧
    ((s.readRegister 2#5).getLsbD 2 = true ↔ s.store.restraint = .restrained) ∧
    (s.readRegister 2#5).getLsbD 3 = s.queue.ready ∧
    ((s.readRegister 2#5).getLsbD 4 = true ↔ s.inbound.list ≠ []) ∧
    (s.readRegister 2#5).getLsbD 5 = s.arbiter.roundInProgress ∧
    (s.readRegister 2#5).extractLsb' 6 2 = (match s.host.faultKind with
      | .none => 0#2
      | .windowRead => 1#2
      | .windowWrite => 2#2
      | .queueEmpty => 3#2) ∧
    highByte (s.readRegister 2#5) = 0#8)

/-- A write of CAUSE_ACK (R182): the one latched cause of the code written ceases to be pending, 5 clearing the
fault kind with it, and any other value does nothing. A write of CAUSE_ENABLE takes bits 4 to 0. CAUSE (sections
10.4, 8.3, 9.4) is the least code that is pending and enabled, 0 when there is none; the five pending causes
follow their sources; and the output is driven low exactly while CAUSE is not 0, so never with every enable at 0. -/
def Obligations.CausesAndTheInterruptOutput : Prop :=
  (∀ s : State, s.resetHeld = false →
      Happens (.causeAck 1#16) s { s with host := { s.host with stationLost := false } } ∧
      Happens (.causeAck 2#16) s { s with host := { s.host with restraintCause := false } } ∧
      Happens (.causeAck 5#16) s { s with host := { s.host with hostFault := false, faultKind := .none } } ∧
      (∀ v : Word, v ≠ 1#16 → v ≠ 2#16 → v ≠ 5#16 → Happens (.causeAck v) s s) ∧
      ∀ v : Word, Happens (.causeEnableWrite v) s
        { s with host := { s.host with causeEnable := v.extractLsb' 0 5 } }) ∧
  (∀ s : State,
      let pending : Nat → Prop := fun n =>
        (n = 1 ∧ s.host.stationLost = true) ∨ (n = 2 ∧ s.host.restraintCause = true) ∨
        (n = 3 ∧ s.queue.ready = true) ∨ (n = 4 ∧ s.inbound.list ≠ []) ∨ (n = 5 ∧ s.host.hostFault = true)
      let shown : Nat → Prop := fun n => pending n ∧ s.host.causeEnable.getLsbD (n - 1) = true
      (∀ n, shown n → (∀ m, m < n → ¬ shown m) → s.cause = n) ∧
      ((∀ n, ¬ shown n) → s.cause = 0) ∧
      (∀ driven, ((s.pins driven).intLow = true ↔ ∃ n, shown n) ∧
        (s.host.causeEnable = 0#5 → (s.pins driven).intLow = false)) ∧
      s.readRegister 3#5 = BitVec.ofNat 16 s.cause ∧ s.readRegister 4#5 = s.host.causeEnable.setWidth 16)

/-- The Completion Queue's own happenings (sections 9.3, 9.4): a write of CQ_INFO removes the head, or is a host
fault on an empty queue; a write of COALESCE takes its fields and is evaluated at once; the linger timer's
running out sets the flag over a queue that is not empty. That an expiry of a stopped linger timer changes
nothing is the model's choice (assumption 5). CQ_TAG, CQ_INFO, CQ_DETAIL and CQ_EXTENT (sections 9.3, 11.1)
present the head of the queue, or read 0 while it is empty, and COALESCE reads the values in force. -/
def Obligations.CompletionQueueHappenings : Prop :=
  (∀ s : State, s.resetHeld = false →
    (∀ v : Word,
      (s.queue.entries = [] → Happens (.cqInfoWrite v) s
        { s with host := { s.host with hostFault := true, faultKind := .queueEmpty } }) ∧
      (∀ c, s.queue.entries = [c] → Happens (.cqInfoWrite v) s
        { s with queue := { s.queue with entries := [], ready := false, lingerTimer := 0#8 } }) ∧
      (∀ c d rest, s.queue.entries = c :: d :: rest → Happens (.cqInfoWrite v) s
        { s with queue := { s.queue with entries := d :: rest } })) ∧
    (∀ v : Word,
      let written := (v.extractLsb' 0 6).toNat
      let threshold := if 1 ≤ written ∧ written ≤ 32 then v.extractLsb' 0 6 else s.queue.threshold
      Happens (.coalesceWrite v) s
        { s with queue := { s.queue with
          threshold := threshold
          lingerTime := highByte v
          ready := s.queue.ready || decide (threshold.toNat ≤ s.queue.entries.length)
          lingerTimer :=
            if threshold.toNat ≤ s.queue.entries.length ∨ highByte v = 0#8 then 0#8
            else s.queue.lingerTimer } }) ∧
    (s.queue.lingerTimer = 0#8 → Happens .lingerExpiry s s) ∧
    (s.queue.lingerTimer ≠ 0#8 → Happens .lingerExpiry s
      { s with queue := { s.queue with
        lingerTimer := 0#8, ready := s.queue.ready || !s.queue.entries.isEmpty } })) ∧
  (∀ s : State,
    lowByte (s.readRegister 30#5) = s.queue.threshold.setWidth 8 ∧ highByte (s.readRegister 30#5) = s.queue.lingerTime ∧
    (s.queue.entries = [] → ∀ o ∈ [14#5, 15#5, 16#5, 17#5], s.readRegister o = 0#16) ∧
    (∀ c rest, s.queue.entries = c :: rest →
      s.readRegister 14#5 = c.tag ∧
      (s.readRegister 15#5).getLsbD 0 = true ∧ (s.readRegister 15#5).extractLsb' 1 2 = c.kind.code ∧
      (s.readRegister 15#5).extractLsb' 3 4 = c.outcome.code ∧ (s.readRegister 15#5).extractLsb' 7 4 = c.attempts ∧
      (s.readRegister 15#5).getLsbD 11 = c.handle.isSome ∧ (s.readRegister 15#5).extractLsb' 12 4 = 0#4 ∧
      lowByte (s.readRegister 16#5) = c.detail ∧
      (s.readRegister 16#5).extractLsb' 8 6 = c.address.setWidth 6 ∧ (s.readRegister 16#5).extractLsb' 14 2 = 0#2 ∧
      ((s.readRegister 17#5).extractLsb' 0 9).toNat = c.extent % 512 ∧
      ((s.readRegister 17#5).extractLsb' 9 6).toNat = (c.handle.map Fin.val).getD 0 ∧
      (s.readRegister 17#5).getLsbD 15 = false)) ∧
  [CommandKind.send, .poll, .action, .broadcast].map CommandKind.code = [0#2, 1#2, 2#2, 3#2] ∧
  [Machine.Outcome.delivered, .sent, .record, .empty, .duplicate, .discarded, .noRoom, .refused, .doneOk, .timedOut,
    .echoFailed, .stationFailed, .cancelled, .detached].map Machine.Outcome.code =
    (List.range 14).map fun k => BitVec.ofNat 4 (k + 1)

/-- The setup registers and the window pointer (sections 5.1, 5.6, 3.4, 4.8, 10.3): each field written takes its
value when it is in its range and keeps the previous one otherwise, no running timer changes, and the value in
force reads back. -/
def Obligations.SetupFieldsTakeValuesInRange : Prop :=
  ∀ (s : State) (v : Word), s.resetHeld = false →
    Happens (.rateWrite v) s { s with line := { s.line with
      rate := if v.extractLsb' 0 12 = 0#12 then s.line.rate else v.extractLsb' 0 12 } } ∧
    Happens (.lineTimesWrite v) s { s with line := { s.line with
      guardTime := if v.extractLsb' 0 4 = 0#4 then s.line.guardTime else v.extractLsb' 0 4
      gapTime := if (v.extractLsb' 8 4).toNat ≤ 1 then s.line.gapTime else v.extractLsb' 8 4 } } ∧
    Happens (.replyTimeWrite v) s { s with line := { s.line with
      replyTimeout := if (lowByte v).toNat ≤ 1 then s.line.replyTimeout else lowByte v } } ∧
    Happens (.probeSetupWrite v) s { s with table := { s.table with
      probeInterval := if lowByte v = 0#8 then s.table.probeInterval else lowByte v
      probeLimit := if highByte v = 0#8 then s.table.probeLimit else highByte v } } ∧
    Happens (.backoffWrite v) s { s with table := { s.table with
      holdBackoff := if lowByte v = 0#8 then s.table.holdBackoff else lowByte v } } ∧
    Happens (.winSelectWrite v) s { s with host := { s.host with winSelect := lowByte v } } ∧
    Happens (.winOffsetWrite v) s { s with host := { s.host with winOffset := v &&& 0xFFFE#16 } } ∧
    s.readRegister 24#5 = s.line.rate.setWidth 16 ∧
    lowByte (s.readRegister 25#5) = s.line.guardTime.setWidth 8 ∧
    highByte (s.readRegister 25#5) = s.line.gapTime.setWidth 8 ∧
    s.readRegister 26#5 = s.line.replyTimeout.setWidth 16 ∧
    lowByte (s.readRegister 28#5) = s.table.probeInterval ∧
    highByte (s.readRegister 28#5) = s.table.probeLimit ∧
    s.readRegister 29#5 = s.table.holdBackoff.setWidth 16 ∧
    s.readRegister 20#5 = s.host.winSelect.setWidth 16 ∧ s.readRegister 21#5 = s.host.winOffset

/-- A read of WIN_DATA (R177): the two bytes at the offset, each 0 at or beyond the length, or 0 with a host fault;
the offset rises by 2; no byte and no descriptor changes. The word presented is held in the model's own field
`readData` (assumption 3), and a record of odd length faults where R177's table says so (assumption 8). -/
def Obligations.WindowReads : Prop :=
  ∀ s : State, s.resetHeld = false →
    let k := s.host.winOffset.toNat
    let faulted : State :=
      { s with
        readData := 0#16
        host := { s.host with
          hostFault := true, faultKind := .windowRead, winOffset := s.host.winOffset + 2#16 } }
    (63 < s.host.winSelect.toNat → Happens .winDataRead s faulted) ∧
    ∀ h : Handle, h.val = s.host.winSelect.toNat →
      let d := s.record h
      let byte : Nat → Byte := fun j =>
        if j < d.length then
          match d.chain[j / 32]? with
          | some b => readByte s.store.bytes (32 * b.val + j % 32)
          | none => 0#8
        else 0#8
      ((d.state = .free ∨ d.state = .arriving ∨ d.length < k) → Happens .winDataRead s faulted) ∧
      (d.state ≠ .free → d.state ≠ .arriving → k ≤ d.length →
        Happens .winDataRead s
          { s with
            readData := byte (k + 1) ++ byte k
            host := { s.host with winOffset := s.host.winOffset + 2#16 } })

/-- A write of WIN_DATA (R178): stored in a FILLING record below its length, the high half only when it lies below
the length too, or dropped with a host fault; the offset rises by 2; every byte of the store outside the one or two
stored is as it was, and so is every descriptor. -/
def Obligations.WindowWrites : Prop :=
  ∀ (s : State) (v : Word), s.resetHeld = false → BytesCanonical s →
    let k := s.host.winOffset.toNat
    let faulted : State :=
      { s with host := { s.host with
          hostFault := true, faultKind := .windowWrite, winOffset := s.host.winOffset + 2#16 } }
    (63 < s.host.winSelect.toNat → Happens (.winDataWrite v) s faulted) ∧
    ∀ h : Handle, h.val = s.host.winSelect.toNat →
      ((s.record h).state ≠ .filling ∨ (s.record h).length ≤ k → Happens (.winDataWrite v) s faulted) ∧
      ((s.record h).state = .filling → k < (s.record h).length → k % 2 = 0 →
        (s.record h).chain.length = ((s.record h).length + 31) / 32 →
        ∃ t, Happens (.winDataWrite v) s t ∧
          t = { s with
            host := { s.host with winOffset := s.host.winOffset + 2#16 }
            store := { s.store with bytes := t.store.bytes } } ∧
          ∀ a : Nat, readByte t.store.bytes a =
            if s.recordAddress h k = some a then lowByte v
            else if s.recordAddress h (k + 1) = some a ∧ k + 1 < (s.record h).length then highByte v
            else readByte s.store.bytes a)

/-- The Lost Summary (R112): a write clears the bits written as 1 and no others, a read returns the 16 bits, and
whatever the command a bit is set by its entry's transition to FAILED, which latches STATION_LOST too; a bit
newly set is that of an entry FAILED after the command, and, where the Station Table is sound, not FAILED before
it; and a bit is cleared by nothing but that write and the two resets, which clear every bit. -/
def Obligations.LostSummaryFollowsTheLosses : Prop :=
  (∀ (s : State) (v : Word), s.resetHeld = false →
    Happens (.lostSummaryWrite v) s
      { s with table := { s.table with lostSummary := s.table.lostSummary &&& ~~~v } }) ∧
  (∀ s : State, s.readRegister 31#5 = s.table.lostSummary) ∧
  (∀ (c : Instr) (s t : State) (n : EntryId), exec c s = .next t →
    (∀ v, c ≠ .lostSummaryWrite v) → c ≠ .controllerReset → c ≠ .hardwareReset →
    (s.table.lostSummary.getLsbD n.val = true → t.table.lostSummary.getLsbD n.val = true) ∧
    ((s.entry n).state ≠ .failed → (t.entry n).state = .failed →
      t.table.lostSummary.getLsbD n.val = true ∧ t.host.stationLost = true) ∧
    (s.table.lostSummary.getLsbD n.val = false → t.table.lostSummary.getLsbD n.val = true →
      (t.entry n).state = .failed ∧ (TableSound s → (s.entry n).state ≠ .failed))) ∧
  (∀ (c : Instr) (s t : State), exec c s = .next t → s.resetHeld = false →
    c = .controllerReset ∨ c = .hardwareReset → t.table.lostSummary = 0#16)

/-! ### The line -/

/-- The transmitter sends the frame: character n of a frame handed over, n times coded from its Marker, is the nth
character of the frame's run on the wire (section 5.2), Marker, coded body, coded checks, End, whatever the
payload, and the last is the End. -/
def Obligations.TheTransmitterSendsTheFrame : Prop :=
  ∀ (s : State) (f : OutFrame),
    let body := [f.dest, 0#8, f.ctrl] ++ (List.range f.payload.length).map (s.payloadByte f.payload)
    frameCharacters body = wireFrame body ∧
    ∀ (n : Nat) (v : Byte), (wireFrame body)[n]? = some v →
      (s.nextCharacter^[n] (f.begin s.line.rate)).current = v ∧
      ((s.nextCharacter^[n] (f.begin s.line.rate)).isEnd = true ↔ n + 1 = (wireFrame body).length)

/-- A sound stray frame is followed to its End and found sound: a frame sent whole to a receiver in HUNT that
awaits no reply, of any body that fits, is followed to its End, counted once as STRAY and neither as CODING nor
as CHECK, and changes nothing else but the guard timer (sections 5.2, 5.5). -/
def Obligations.SoundFramesAreDecodedWhole : Prop :=
  ∀ (s : State) (body : List Byte), s.line.rx = .hunt → s.line.lineHeld = false → body.length ≤ 483 →
    (∀ x ∈ s.exchange, x.phase ≠ .awaitReply) →
    (wireFrame body).foldl (fun t v => t.receive v (evenParity v) true) s =
      { s with line := { s.line with
        guardTimer := s.line.guardTime, gapTimer := 0#4, stray := satInc s.line.stray } }

/-- Characters received outside a frame (sections 5.1, 5.4, 5.5): none while the line is held after a stop error;
in DRAIN, and in HUNT but for a good Marker, only the guard timer is reloaded; a good Marker in HUNT opens a
REPLY frame in AWAIT_REPLY, whose reply timer stops, and a STRAY one otherwise; in ECHO a match takes the oldest
from the echo list. The echo of the End that empties it (sections 2.2.1, 2.4.3, 2.5) starts the wait for the
reply; of a BROADCAST it completes the command SENT, its record freed or, with KEEP set, READY; of an answer it
closes the exchange, and a POLL completes with the decision. -/
def Obligations.CharactersOutsideAFrame : Prop :=
  ∀ (s : State) (v : Byte) (p st : Bool), s.resetHeld = false →
    (s.line.lineHeld = true → Happens (.characterReceived v p st) s s) ∧
    (s.line.lineHeld = false →
      let good := p = evenParity v ∧ st = true
      let heard : LineEngine := { s.line with guardTimer := s.line.guardTime, lineHeld := !st }
      (s.line.rx = .drain → Happens (.characterReceived v p st) s { s with line := heard }) ∧
      (s.line.rx = .hunt → ¬ (good ∧ v = 0xE0#8) →
        Happens (.characterReceived v p st) s { s with line := heard }) ∧
      (s.line.rx = .hunt → good → v = 0xE0#8 →
        (∀ x ∈ s.exchange, x.phase = .awaitReply →
          Happens (.characterReceived v p st) s
            { s with
              exchange := some { x with phase := .receiveReply }
              line := { heard with
                replyTimer := 0#8, gapTimer := s.line.gapTime, rx := .frame (openedFrame .reply) } }) ∧
        ((∀ x ∈ s.exchange, x.phase ≠ .awaitReply) →
          Happens (.characterReceived v p st) s
            { s with line := { heard with
              gapTimer := s.line.gapTime, rx := .frame (openedFrame .stray) } })) ∧
      (s.line.rx = .echo → ∀ c rest, s.line.echoList = c :: rest → good → v = c.value →
        (v ≠ 0xE1#8 ∨ rest ≠ []) →
        Happens (.characterReceived v p st) s { s with line := { heard with echoList := rest } }) ∧
      (s.line.rx = .echo → ∀ c, s.line.echoList = [c] → good → v = c.value → v = 0xE1#8 →
        ∀ x ∈ s.exchange, x.phase = .transmit → x.kind ≠ .broadcast →
          Happens (.characterReceived v p st) s
            { s with
              exchange := some { x with phase := .awaitReply }
              line := { heard with
                echoList := [], rx := .hunt, replyTimer := s.line.replyTimeout } }) ∧
      (s.line.rx = .echo → ∀ c, s.line.echoList = [c] → good → v = c.value → v = 0xE1#8 →
        let echoed : State := { s with line := { heard with echoList := [], rx := .hunt } }
        ∀ x ∈ s.exchange,
          (x.phase = .transmit → x.kind = .broadcast → ∀ i y h, x.slot = some i → s.slot i = some y →
            y.place = .broadcast → y.handle = some h →
            ∃ t, Happens (.characterReceived v p st) s t ∧ t.exchange = none ∧
              t.queue = queueAfter s.queue
                [{ tag := y.tag, kind := y.kind, address := y.address, outcome := .sent, attempts := y.attempts
                   detail := 0#8, handle := if (s.record h).keep = true then some h else none, extent := 0 }] ∧
              t.command = { s.command with
                slots := s.command.slots.set i none
                broadcastList := s.command.broadcastList.erase i } ∧
              (∀ g, g ≠ h → t.record g = s.record g) ∧
              ((s.record h).keep = false →
                t.record h = Descriptor.free ∧ BlocksReturned s t (s.record h).chain) ∧
              ((s.record h).keep = true →
                t.record h = { s.record h with state := .ready, keep := false } ∧ SameBlocks s t ∧
                t.host = s.host) ∧
              t.line = echoed.line ∧ t.table = s.table ∧ t.arbiter = s.arbiter ∧ t.inbound = s.inbound ∧
              t.lastClose = s.lastClose ∧ t.resetHeld = s.resetHeld ∧ t.readData = s.readData ∧ t.pending = s.pending) ∧
          (x.phase = .answer → x.slot = none →
            Happens (.characterReceived v p st) s { echoed with exchange := none }) ∧
          (x.phase = .answer → ∀ e i behind y d, x.slot = some i → x.decision = some d → s.slot i = some y →
            y.place = .station e → y.handle = none → (s.entry e).pendingList = i :: behind → SlotsListed s →
            ∃ u, PollCompleted echoed u e i behind y d ∧
              Happens (.characterReceived v p st) s { u with exchange := none })))

/-- Characters received inside a frame (section 5.5), each reloading the guard and gap timers. In a reply's frame
and in a stray one alike: a bad one marks the frame for a character error; a good Marker restarts it, and an
arrival that is STORING stops for it; Shift announces the shifted byte of the next character, and any other
character after it is a shift error; body bytes beyond 485 are discarded. In a stray frame every other value is a
body byte, held with the one before it while the byte before those two joins the accumulators, and a good End
closes the frame: it is counted STRAY, and CHECK when it is neither marked CODING nor SHORT and its held pair
differs from the checks accumulated. The two counts of a restart that finds a Shift pending are the model's
reading (assumption 7). -/
def Obligations.CharactersInsideAFrame : Prop :=
  ∀ (s : State) (f : InFrame) (v : Byte) (p st : Bool), s.resetHeld = false → s.line.lineHeld = false →
    s.line.rx = .frame f →
    let good := p = evenParity v ∧ st = true
    let heard : LineEngine :=
      { s.line with guardTimer := s.line.guardTime, gapTimer := s.line.gapTime, lineHeld := !st }
    let becomes : InFrame → Word → Prop := fun g coding =>
      Happens (.characterReceived v p st) s { s with line := { heard with coding := coding, rx := .frame g } }
    let body : Byte → Prop := fun w =>
      let g : InFrame := { f with shiftPending := false }
      (f.oversize = true → becomes g s.line.coding) ∧
      (f.oversize = false → 485 ≤ f.count → becomes { g with oversize := true } (satInc s.line.coding)) ∧
      (f.oversize = false → f.count < 485 → f.dest = .stray → becomes (heldFrame f w) s.line.coding)
    (¬ good → becomes { f with shiftPending := false, charError := true } (satInc s.line.coding)) ∧
    (good → v = 0xE0#8 →
      let begun : State :=
        { s with line := { heard with
          coding := satInc (if f.shiftPending then satInc s.line.coding else s.line.coding)
          rx := .frame { openedFrame f.dest with restarted := true } } }
      (f.dest = .stray → Happens (.characterReceived v p st) s begun) ∧
      (f.dest = .reply → Happens (.characterReceived v p st) s
        { begun with inbound := { s.inbound with
          arrival := s.inbound.arrival.map fun a => { a with stop := some (a.stop.getD .restart) } } })) ∧
    (good → v = 0xE2#8 → f.shiftPending = false →
      becomes { f with shiftPending := true } s.line.coding) ∧
    (good → f.shiftPending = true → v ≠ 0xE0#8 → v ≠ 0xE1#8 →
      (v = 0xEF#8 → body 0xE0#8) ∧ (v = 0xEE#8 → body 0xE1#8) ∧ (v = 0xED#8 → body 0xE2#8) ∧
      (v ≠ 0xEF#8 → v ≠ 0xEE#8 → v ≠ 0xED#8 →
        becomes { f with shiftPending := false, shiftError := true } (satInc s.line.coding))) ∧
    (good → f.shiftPending = false → v ≠ 0xE0#8 → v ≠ 0xE1#8 → v ≠ 0xE2#8 → body v) ∧
    (good → v = 0xE1#8 → f.dest = .stray →
      let marked := f.shiftPending = true ∨ f.shiftError = true ∨ f.charError = true ∨ f.oversize = true ∨
        f.restarted = true
      let fails := ¬ marked ∧ 5 ≤ f.count ∧
        ¬ (f.older = some f.accXor ∧ f.newer = some (f.accSum + f.accCount))
      let closes : Word → Prop := fun check =>
        Happens (.characterReceived v p st) s
          { s with line := { heard with
            gapTimer := 0#4, rx := .hunt, stray := satInc s.line.stray, check := check
            coding := if f.shiftPending then satInc s.line.coding else s.line.coding } }
      (fails → closes (satInc s.line.check)) ∧ (¬ fails → closes s.line.check))

/-- An ECHO fault (section 5.4), on a bad echo, a wrong one, one too many, or an overdue one: ECHO is counted,
the echo list emptied, the transmitter asked to stop, the receiver in DRAIN, and the attempt of a TRANSMIT ends
ECHO. In ANSWER (section 2.5) the decision stands: a POLL completes with it, then the failure is reported to the
station, and the exchange ends; a ROUND_POLL posts nothing. A report that does not bring consec_fail to the fail
limit counts the failure and nothing else; one that does is LossCompletesTheList's. That a deadline passing with
an empty echo list changes nothing is the model's choice (assumption 5). -/
def Obligations.EchoFaults : Prop :=
  (∀ s : State, s.resetHeld = false → s.line.rx = .echo →
    let cut : LineEngine → LineEngine := fun l =>
      { l with
        echo := satInc l.echo, echoList := [], rx := .drain
        tx := l.tx.map fun y => { y with stopRequested := true } }
    let faults : Instr → State → Prop := fun c t =>
      ((∀ x ∈ s.exchange, x.phase ≠ .transmit ∧ x.phase ≠ .answer) → Happens c s t) ∧
      (∀ x ∈ s.exchange, x.phase = .transmit → Happens c s (t.failAttempt x .echo)) ∧
      (∀ x ∈ s.exchange, x.phase = .answer → x.slot = none →
        Happens c s { t.report x.place .echo with exchange := none }) ∧
      (∀ x ∈ s.exchange, x.phase = .answer → ∀ e i behind y d, x.place = .station e → x.slot = some i →
        x.decision = some d → s.slot i = some y → y.place = .station e → y.handle = none →
        (s.entry e).pendingList = i :: behind → SlotsListed s →
        ∃ u, PollCompleted t u e i behind y d ∧
          Happens c s { u.report (.station e) .echo with exchange := none }) ∧
      (∀ x ∈ s.exchange, x.phase = .answer → ∃ u, Happens c s u ∧ u.exchange = none)
    (s.line.echoList ≠ [] → faults .echoDeadline { s with line := cut s.line }) ∧
    (s.line.echoList = [] → Happens .echoDeadline s s) ∧
    ∀ (v : Byte) (p st : Bool), s.line.lineHeld = false →
      ((∀ c ∈ s.line.echoList.head?, ¬ (p = evenParity v ∧ st = true ∧ v = c.value)) →
        faults (.characterReceived v p st)
          { s with line := cut { s.line with guardTimer := s.line.guardTime, lineHeld := !st } })) ∧
  (∀ (u : State) (e : EntryId), satInc (u.entry e).consecFail ≠ (u.entry e).failLimit →
    u.report (.station e) .echo = { u with table := { u.table with entries := (u.table.entries.set e { u.entry e with
      consecFail := satInc (u.entry e).consecFail, failTotal := satInc (u.entry e).failTotal
      lastFault := .echo }) } })

/-- The guard timer's running out on a quiet line (sections 2.2, 2.5, 5.3): an exchange in GUARD enters TRANSMIT,
one in ANSWER_GUARD with its decision enters ANSWER, the transmitter sends the Marker of the frame owed and the
receiver is in ECHO; the slot's attempt count rises, and a REFUSE counts as a refusal. The frame of an attempt
(sections 2.2, 2.4.3, 3.2, 3.4) has high bits 0, and its kind, sequence bit and payload are the exchange's; a
BROADCAST's is a DATA of bit 0 with its record's bytes; an answer's CTRL is 3 for ACK, 6 for REFUSE or 5 for HOLD
with the decision's sequence bit in bit 4. In every state the guard timer's running out stops it,
and where no exchange waits in GUARD or ANSWER_GUARD it changes nothing else of an exchange in flight. -/
def Obligations.QuietLinesAreSpokenOn : Prop :=
  (∀ s : State, s.resetHeld = false → s.line.rx = .hunt → s.line.tx = none →
      let speaking : OutFrame → LineEngine := fun f =>
        { s.line with
          guardTimer := 0#4, rx := .echo, echoList := [{ value := 0xE0#8, deadline := 2 }]
          tx := some
            { frame := f, current := 0xE0#8, isEnd := false, divisor := s.line.rate, coded := 0, shifted := none
              accXor := 0#8, accSum := 0#8, accCount := 0#8, stopRequested := false } }
      (∀ x ∈ s.exchange, x.phase = .guard →
        ∃ t, exec .guardTimerExpiry s = .next t ∧ t = { s with
          line := t.line, exchange := t.exchange, command := t.command, lastClose := none } ∧
          t.exchange = some { x with phase := .transmit, header := none, firstPayload := none } ∧
          t.command = { s.command with slots := t.command.slots } ∧
          (∀ i, t.slot i = if x.slot = some i
            then (s.slot i).map fun y => { y with attempts := satInc y.attempts } else s.slot i) ∧
          t.line = speaking (s.attemptFrame x) ∧
          (s.attemptFrame x).dest = (match x.place with
            | .station e => ((s.entry e).address.getD 0#8)
            | .broadcast => 63#8)) ∧
      (∀ x ∈ s.exchange, x.phase = .answerGuard → ∀ d ∈ x.decision,
        ∃ t, exec .guardTimerExpiry s = .next t ∧ t = { s with
          line := t.line, exchange := t.exchange, table := t.table, lastClose := none } ∧
          t.exchange = some { x with phase := .answer } ∧ t.table = { s.table with entries := t.table.entries } ∧
          (∀ i, t.entry i =
            if x.place = .station i ∧ (d.verdict = .long ∨ d.verdict = .shortRecord)
            then { s.entry i with refusals := satInc (s.entry i).refusals } else s.entry i) ∧
          t.line = speaking
            { dest := s.addressOf x.place
              ctrl := (match d.verdict with
                | .duplicate | .accepted _ => 0x03#8
                | .long | .shortRecord => 0x06#8
                | .noRoom _ => 0x05#8) ||| (if d.seq = true then 0x10#8 else 0x00#8)
              payload := .bytes (match d.verdict with
                | .long => [2#8]
                | .shortRecord => [3#8]
                | .duplicate | .accepted _ | .noRoom _ => []) })) ∧
  (∀ s : State, s.resetHeld = false →
      Happens .guardTimerExpiry s { s with line := { s.line with guardTimer := 0#4 } } ∧
      ∀ x ∈ s.exchange, x.phase ≠ .guard → x.phase ≠ .answerGuard →
        exec .guardTimerExpiry s = .next { s with lastClose := none, line := { s.line with guardTimer := 0#4 } }) ∧
  (∀ (s : State) (x : Exchange), x.kind = .broadcast →
      (s.attemptFrame x).ctrl = 0x01#8 ∧ (x.place = .broadcast → (s.attemptFrame x).dest = 63#8) ∧
      ∀ i ∈ x.slot, ∀ y ∈ s.slot i, ∀ h ∈ y.handle,
        (s.attemptFrame x).payload.length = (s.record h).length ∧
        ∀ k, s.payloadByte (s.attemptFrame x).payload k = s.recordByte h k) ∧
  (∀ (s : State) (x : Exchange) (e : EntryId), x.place = .station e →
      ((s.attemptFrame x).ctrl.extractLsb' 5 3 = 0#3) ∧
      (x.kind = .send → ∀ i ∈ x.slot, ∀ y ∈ s.slot i, ∀ h ∈ y.handle,
        (s.attemptFrame x).ctrl.extractLsb' 0 4 = 1#4 ∧ (s.attemptFrame x).ctrl.getLsbD 4 = (s.entry e).txSeq ∧
        (s.attemptFrame x).payload.length = (s.record h).length ∧
        ∀ k, s.payloadByte (s.attemptFrame x).payload k = s.recordByte h k) ∧
      (x.kind = .poll ∨ x.kind = .roundPoll → (s.attemptFrame x).ctrl = 0x02#8 ∧
        (s.attemptFrame x).payload = .bytes []) ∧
      (∀ o, x.kind = .sync o → (s.attemptFrame x).ctrl = 0x0C#8 ∧ (s.attemptFrame x).payload = .bytes []) ∧
      (x.kind = .probe → (s.attemptFrame x).ctrl = 0x0A#8 ∧ (s.attemptFrame x).payload = .bytes []) ∧
      (x.kind = .action → ∀ i ∈ x.slot, ∀ y ∈ s.slot i, ∀ a ∈ y.action,
        (s.attemptFrame x).ctrl.extractLsb' 0 4 = 8#4 ∧ (s.attemptFrame x).ctrl.getLsbD 4 = (s.entry e).txSeq ∧
        (s.attemptFrame x).payload = .bytes (a.code :: a.params)))

/-- The reply timer and the gap timer run out (sections 2.2, 5.6): in AWAIT_REPLY the attempt ends NO_REPLY; a
reply's frame is abandoned, its arrival discarded and the attempt ended GAP; a stray frame is abandoned. A wait that
a timer ends leaves the exchange of the retry, or of the next grant, in GUARD and the receiver as it was, so that a
Marker that comes together with the reply timer's end opens a stray frame; the report of a line that is quiet
already is the next happening's, which is the model's reading (assumption 22). That an expiry of a stopped timer, or of
the gap timer outside a frame, changes nothing is the model's choice (assumption 5). -/
def Obligations.RepliesTimeOut : Prop :=
  ∀ s : State, s.resetHeld = false →
    (s.line.replyTimer = 0#8 → Happens .replyTimerExpiry s s) ∧
    (s.line.replyTimer ≠ 0#8 →
      (∀ x ∈ s.exchange, x.phase = .awaitReply →
        EndsWait .replyTimerExpiry s
          (State.failAttempt { s with line := { s.line with replyTimer := 0#8 } } x .noReply) ∧
        ∃ t, exec .replyTimerExpiry s = .next t ∧ t.line = { s.line with replyTimer := 0#8 } ∧
          ∀ y ∈ t.exchange, y.phase = .guard) ∧
      ((∀ x ∈ s.exchange, x.phase ≠ .awaitReply) →
        Happens .replyTimerExpiry s { s with line := { s.line with replyTimer := 0#8 } })) ∧
    (s.line.gapTimer = 0#4 ∨ (∀ f, s.line.rx ≠ .frame f) → Happens .gapTimerExpiry s s) ∧
    (s.line.gapTimer ≠ 0#4 → ∀ f, s.line.rx = .frame f →
      let ended : State := { s with line := { s.line with rx := .hunt, gapTimer := 0#4 } }
      (f.dest = .stray → Happens .gapTimerExpiry s ended) ∧
      (f.dest = .reply → ∀ x ∈ s.exchange,
        ∃ t, (x.phase = .awaitReply ∨ x.phase = .receiveReply →
            EndsWait .gapTimerExpiry s (t.failAttempt x .gap)) ∧
          (x.phase ≠ .awaitReply → x.phase ≠ .receiveReply → Happens .gapTimerExpiry s (t.failAttempt x .gap)) ∧
          ArrivalDiscarded ended t ∧ (s.inbound.arrival = none → t = ended)))

/-- The end of a failed attempt that does not lose the station (sections 2.2, 6.1, 6.2, 6.5): the failure is
counted against the station addressed, and the first case of R30 that holds is applied: a round exchange ends, a
broadcast of three attempts completes ECHO_FAILED, with RUN 0 the exchange ends with its record QUEUED, and
otherwise it returns to GUARD. -/
def Obligations.FailedAttemptsRetryOrEnd : Prop :=
  ∀ (s : State) (x : Exchange) (o : AttemptOutcome), o.failed = true →
    let retried : Exchange :=
      { x with attempt := satInc x.attempt, phase := .guard, outcome := some o, decision := none }
    let requeued : State → State → Prop := fun u t =>
      t = { u with exchange := none, store := { u.store with descriptors := t.store.descriptors } } ∧
      ∀ h, t.record h = if (x.slot.bind u.slot).bind Slot.handle = some h ∧ (u.record h).state = .sending
        then { u.record h with state := .queued } else u.record h
    (∀ e, x.place = .station e → (s.entry e).state ≠ .failed → x.kind ≠ .broadcast →
      satInc (s.entry e).consecFail ≠ (s.entry e).failLimit →
      let u : State :=
        { s with table := { s.table with entries := (s.table.entries.set e { s.entry e with
          consecFail := satInc (s.entry e).consecFail, failTotal := satInc (s.entry e).failTotal
          lastFault := o }) } }
      ((x.kind = .roundPoll ∨ x.kind = .sync .round) → s.failAttempt x o = { u with exchange := none }) ∧
      (x.kind ≠ .roundPoll → x.kind ≠ .sync .round →
        (s.host.run = false → requeued u (s.failAttempt x o)) ∧
        (s.host.run = true → s.failAttempt x o = { u with exchange := some retried }))) ∧
    (x.place = .broadcast → x.kind = .broadcast → ∀ i ∈ x.slot, ∀ y ∈ s.slot i,
      (3 ≤ y.attempts.toNat → y.place = .broadcast → ∀ h ∈ y.handle,
        (s.failAttempt x o).exchange = none ∧
        (s.failAttempt x o).command = { s.command with
          slots := s.command.slots.set i none, broadcastList := s.command.broadcastList.erase i } ∧
        (s.failAttempt x o).queue = queueAfter s.queue
          [{ tag := y.tag, kind := y.kind, address := y.address, outcome := .echoFailed, attempts := y.attempts
             detail := 0#8, handle := some h, extent := 0 }] ∧
        (s.failAttempt x o).record h = { s.record h with state := .ready, keep := false } ∧
        (∀ g, g ≠ h → (s.failAttempt x o).record g = s.record g) ∧ SameBlocks s (s.failAttempt x o) ∧
        (s.failAttempt x o).host = s.host ∧ (s.failAttempt x o).table = s.table ∧
        (s.failAttempt x o).line = s.line ∧ (s.failAttempt x o).arbiter = s.arbiter ∧
        (s.failAttempt x o).inbound = s.inbound ∧ (s.failAttempt x o).resetHeld = s.resetHeld ∧
        (s.failAttempt x o).lastClose = s.lastClose ∧ (s.failAttempt x o).readData = s.readData ∧
        (s.failAttempt x o).pending = s.pending) ∧
      (y.attempts.toNat < 3 →
        (s.host.run = false → requeued s (s.failAttempt x o)) ∧
        (s.host.run = true → s.failAttempt x o = { s with exchange := some retried })))

/-- A station is lost (sections 6.1, 6.3): the failure that brings consec_fail to fail_limit makes the entry
FAILED with its timers stopped, completes every command of its list in list order, STATION_FAILED with the last
fault or CANCELLED for a marked one, sets its Lost Summary bit and latches STATION_LOST; nothing else changes. A
failed attempt that loses the station ends the exchange with that (section 2.2.2). The WORKING reply to a PROBE
that brings the probe count to the limit (section 3.4.2) loses the station in the same way, the open action
TIMED_OUT with the new count and last fault and consec_fail's 0 kept. The fault shown is R103's code, 0 to 11. -/
def Obligations.LossCompletesTheList : Prop :=
  let lost : State → State → EntryId → (SlotId → Slot → Machine.Outcome × Byte × Nat) → Prop := fun s t e how =>
    t.queue = queueAfter s.queue (completionsOf s e how) ∧
    ListFinished s t e ∧ (∀ j, j ≠ e → t.entry j = s.entry j) ∧ SameBlocks s t ∧
    t.table = { s.table with
      entries := t.table.entries, lostSummary := s.table.lostSummary ||| (1#16 <<< e.val) } ∧
    t.host = { s.host with stationLost := true } ∧ t.inbound = s.inbound ∧
    t.line = s.line ∧ t.arbiter = s.arbiter ∧ t.command = { s.command with slots := t.command.slots } ∧
    t.lastClose = s.lastClose ∧ t.resetHeld = s.resetHeld ∧ t.readData = s.readData ∧ t.pending = s.pending
  [AttemptOutcome.ok, .noReply, .gap, .coding, .short, .check, .wrongDest, .wrongSource, .badReply, .naked, .echo,
    .aborted].map AttemptOutcome.code = (List.range 12).map (BitVec.ofNat 4) ∧
  (∀ (s : State) (e : EntryId) (o : AttemptOutcome), o.failed = true → SlotsListed s →
    satInc (s.entry e).consecFail = (s.entry e).failLimit →
    let t := s.report (.station e) o
    t.entry e = { s.entry e with
      state := .failed, consecFail := (s.entry e).failLimit, failTotal := satInc (s.entry e).failTotal
      lastFault := o, backoffTimer := { beats := 0#8, passed := 0 }, probeTimer := { beats := 0#8, passed := 0 }
      openAction := none, pendingList := [] } ∧
    t.exchange = s.exchange ∧
    lost s t e (fun i y =>
      if (s.entry e).openAction = some i then
        (.stationFailed, o.code.setWidth 8, (s.entry e).probeCount.toNat)
      else if y.cancelMark = true then (.cancelled, 0#8, 0) else (.stationFailed, o.code.setWidth 8, 0)) ∧
    ∀ x : Exchange, x.place = .station e → s.failAttempt x o = { t with exchange := none }) ∧
  (∀ (s : State) (x : Exchange) (f : InFrame) (e : EntryId), s.exchange = some x → x.place = .station e →
    x.kind = .probe → s.judgeReply x f = (.ok, some .working) → SlotsListed s →
    s.table.probeLimit.toNat ≤ (satInc (s.entry e).probeCount).toNat →
    let t := s.closeReply f
    t.entry e = { s.entry e with
      state := .failed, consecFail := 0#4, probeCount := satInc (s.entry e).probeCount
      backoffTimer := { beats := 0#8, passed := 0 }, probeTimer := { beats := 0#8, passed := 0 }
      openAction := none, pendingList := [] } ∧
    t.exchange = none ∧
    lost s t e (fun i y =>
      if (s.entry e).openAction = some i then (.timedOut, 0#8, (satInc (s.entry e).probeCount).toNat)
      else if y.cancelMark = true then (.cancelled, 0#8, 0)
      else (.stationFailed, (s.entry e).lastFault.code.setWidth 8, 0)))

/-- The order in which a reply closed by its End is judged (section 2.2): CODING, SHORT, CHECK, WRONG_DEST,
WRONG_SOURCE, BAD_REPLY, NAKED, OK; each outcome where its condition holds and none before it does, the kinds
allowed by the exchange (sections 2.4, 3.2.2, 3.4.2) and the payload lengths by the kind. A good End inside a
reply's frame (section 5.5) is that close: the receiver enters HUNT, the gap timer stops, the CODING and CHECK
counters take the frame's faults, and the reply closes. The close of a reply judged other than OK discards its
arrival and ends the attempt with its outcome (section 8.2.1). -/
def Obligations.RepliesAreJudgedInOrder : Prop :=
  (∀ (s : State) (x : Exchange) (f : InFrame),
    let coding := f.shiftError = true ∨ f.charError = true ∨ f.oversize = true ∨ f.restarted = true
    let short := f.count < 5
    let check := ¬ (f.older = some f.accXor ∧ f.newer = some (f.accSum + f.accCount))
    let payload := f.count - 5
    let allowed : FrameKind → Prop := fun k =>
      (x.kind = .send ∧ (k = .ack ∨ k = .refuse ∨ k = .hold ∨ k = .nak)) ∨
      ((x.kind = .poll ∨ x.kind = .roundPoll) ∧ (k = .data ∨ k = .empty)) ∨
      ((∃ o, x.kind = .sync o) ∧ k = .ack) ∨
      (x.kind = .action ∧ (k = .ack ∨ k = .working ∨ k = .refuse ∨ k = .hold ∨ k = .nak)) ∨
      (x.kind = .probe ∧ (k = .working ∨ k = .done ∨ k = .nak))
    let fits : FrameKind → Prop := fun k =>
      ((k = .ack ∨ k = .nak ∨ k = .hold ∨ k = .empty ∨ k = .working) → payload = 0) ∧
      ((k = .refuse ∨ k = .done) → payload = 1) ∧ (k = .data → payload ≤ 480)
    (coding → (s.judgeReply x f).1 = .coding) ∧
    (¬ coding → short → (s.judgeReply x f).1 = .short) ∧
    (¬ coding → ¬ short → check → (s.judgeReply x f).1 = .check) ∧
    ∀ h ∈ x.header,
      let kind := kindOfCode (h.ctrl.extractLsb' 0 4)
      let wrong := h.ctrl.extractLsb' 5 3 ≠ 0#3 ∨ (∀ k ∈ kind, ¬ allowed k ∨ ¬ fits k ∨
        ((x.kind = .send ∨ x.kind = .action) ∧ (k = .ack ∨ k = .refuse ∨ k = .working) ∧
          h.ctrl.getLsbD 4 ≠ (s.attemptFrame x).ctrl.getLsbD 4))
      (¬ coding → ¬ short → ¬ check → h.dest ≠ 0#8 → (s.judgeReply x f).1 = .wrongDest) ∧
      (¬ coding → ¬ short → ¬ check → h.dest = 0#8 → h.src ≠ s.addressOf x.place →
        (s.judgeReply x f).1 = .wrongSource) ∧
      (¬ coding → ¬ short → ¬ check → h.dest = 0#8 → h.src = s.addressOf x.place →
        (wrong → (s.judgeReply x f).1 = .badReply) ∧
        (¬ wrong → ∀ k ∈ kind, s.judgeReply x f = (if k = .nak then .naked else .ok, some k)))) ∧
  ((List.range 16).map fun c => kindOfCode (BitVec.ofNat 4 c)) =
    [none, some .data, some .poll, some .ack, some .nak, some .hold, some .refuse, some .empty, some .action,
      some .working, some .probe, some .done, some .sync, none, none, none] ∧
  (∀ (s : State) (f : InFrame) (p : Bool), s.resetHeld = false → s.line.lineHeld = false →
    s.line.rx = .frame f → f.dest = .reply → p = evenParity 0xE1#8 →
    let g : InFrame := { f with shiftPending := false, shiftError := f.shiftError || f.shiftPending }
    let marked := g.shiftError = true ∨ g.charError = true ∨ g.oversize = true ∨ g.restarted = true
    let fails := ¬ marked ∧ 5 ≤ f.count ∧ ¬ (f.older = some f.accXor ∧ f.newer = some (f.accSum + f.accCount))
    let closed : Word → State := fun check =>
      { s with line := { s.line with
        guardTimer := s.line.guardTime, gapTimer := 0#4, rx := .hunt, check := check
        coding := if f.shiftPending then satInc s.line.coding else s.line.coding } }
    (fails → Happens (.characterReceived 0xE1#8 p true) s ((closed (satInc s.line.check)).closeReply g)) ∧
    (¬ fails → Happens (.characterReceived 0xE1#8 p true) s ((closed s.line.check).closeReply g))) ∧
  (∀ (s : State) (x : Exchange) (f : InFrame), s.exchange = some x → (s.judgeReply x f).1 ≠ .ok →
    (s.judgeReply x f).1.failed = true ∧
    ∃ u, ArrivalDiscarded s u ∧ s.closeReply f = u.failAttempt x (s.judgeReply x f).1)

/-- The replies that end an exchange with its own work done, evaluated OK (sections 2.4, 3.2.2). To a SEND, ACK
delivers and REFUSE refuses the command; to an ACTION, ACK completes it DONE_OK and REFUSE refuses it: each
completes with the marked commands behind it and flips tx_seq. HOLD to either loads the backoff timer and keeps
the command. EMPTY completes a POLL EMPTY and ends a ROUND_POLL; an ACK to a SYNC brings both sequence bits to 0. -/
def Obligations.RepliesToSendAndSync : Prop :=
  ∀ (s : State) (x : Exchange) (f : InFrame) (e : EntryId), s.exchange = some x → x.place = .station e →
    let t := s.closeReply f
    let held : Entry :=
      { s.entry e with consecFail := 0#4, backoffTimer := { beats := s.table.holdBackoff, passed := 0 } }
    (∀ (i : SlotId) (behind : List SlotId) (y : Slot), x.slot = some i → (s.entry e).pendingList = i :: behind →
      s.slot i = some y → SlotsListed s →
      let done : Machine.Outcome → Byte → Option Handle → Completion := fun o detail handle =>
        { tag := y.tag, kind := y.kind, address := y.address, outcome := o, attempts := y.attempts
          detail := detail, handle := handle, extent := 0 }
      let flipped : Entry :=
        { s.entry e with
          consecFail := 0#4, txSeq := !(s.entry e).txSeq, pendingList := behind.dropWhile s.marked }
      (x.kind = .send → ∀ h, y.handle = some h → RecordsOwned s →
        (s.judgeReply x f = (.ok, some .ack) →
          t.exchange = none ∧ t.entry e = flipped ∧
          ((s.record h).keep = false → HeadCompleted s t e i behind (done .delivered 0#8 none) ∧
            t.record h = Descriptor.free ∧ BlocksReturned s t (s.record h).chain) ∧
          ((s.record h).keep = true → HeadCompleted s t e i behind (done .delivered 0#8 (some h)) ∧
            t.record h = { s.record h with state := .ready, keep := false } ∧ SameBlocks s t ∧ t.host = s.host)) ∧
        (s.judgeReply x f = (.ok, some .refuse) →
          t.exchange = none ∧ t.entry e = flipped ∧
          HeadCompleted s t e i behind (done .refused (x.firstPayload.getD 0#8) (some h)) ∧
          t.record h = { s.record h with state := .ready, keep := false } ∧ SameBlocks s t ∧ t.host = s.host) ∧
        (s.judgeReply x f = (.ok, some .hold) →
          t = { s with
            exchange := none, table := { s.table with entries := s.table.entries.set e held }
            store := { s.store with descriptors := t.store.descriptors } } ∧
          ∀ g, t.record g = if g = h ∧ (s.record h).state = .sending
            then { s.record h with state := .queued } else s.record g)) ∧
      (x.kind = .action → y.handle = none →
        (s.judgeReply x f = (.ok, some .ack) →
          t.exchange = none ∧ t.entry e = flipped ∧ HeadCompleted s t e i behind (done .doneOk 0#8 none) ∧
          SameBlocks s t ∧ t.host = s.host) ∧
        (s.judgeReply x f = (.ok, some .refuse) →
          t.exchange = none ∧ t.entry e = flipped ∧
          HeadCompleted s t e i behind (done .refused (x.firstPayload.getD 0#8) none) ∧
          SameBlocks s t ∧ t.host = s.host) ∧
        (s.judgeReply x f = (.ok, some .hold) →
          t = { s with exchange := none, table := { s.table with entries := s.table.entries.set e held } })) ∧
      (x.kind = .poll → y.handle = none → s.judgeReply x f = (.ok, some .empty) →
        t.exchange = none ∧
        t.entry e = { s.entry e with consecFail := 0#4, pendingList := behind.dropWhile s.marked } ∧
        HeadCompleted s t e i behind (done .empty 0#8 none) ∧ SameBlocks s t ∧ t.host = s.host)) ∧
    (x.kind = .roundPoll → s.judgeReply x f = (.ok, some .empty) →
      t = { s with
        exchange := none
        table := { s.table with entries := s.table.entries.set e { s.entry e with consecFail := 0#4 } } }) ∧
    (∀ o, x.kind = .sync o → s.judgeReply x f = (.ok, some .ack) →
      t =
        { s with
          exchange := none
          table := { s.table with entries := (s.table.entries.set e { s.entry e with
            consecFail := 0#4, txSeq := false, rxExpect := false, syncNeeded := false }) } })

/-- The replies that begin, follow and end a remote action (sections 3.3, 3.4): WORKING to an ACTION makes it the
open action; WORKING to a PROBE raises the count and below the limit reloads the timer (at the limit:
LossCompletesTheList); DONE makes the station READY and completes the open action DONE_OK with the result and the
count. -/
def Obligations.ActionsAreFollowedByProbes : Prop :=
  ∀ (s : State) (x : Exchange) (f : InFrame) (e : EntryId), s.exchange = some x → x.place = .station e →
    (x.kind = .action → s.judgeReply x f = (.ok, some .working) →
      s.closeReply f =
        { s with
          exchange := none
          table := { s.table with entries := (s.table.entries.set e { s.entry e with
            state := .working, consecFail := 0#4, txSeq := !(s.entry e).txSeq, openAction := x.slot
            probeCount := 0#8, probeTimer := { beats := s.table.probeInterval, passed := 0 } }) } }) ∧
    (x.kind = .probe → s.judgeReply x f = (.ok, some .working) →
      (satInc (s.entry e).probeCount).toNat < s.table.probeLimit.toNat →
      s.closeReply f =
        { s with
          exchange := none
          table := { s.table with entries := (s.table.entries.set e { s.entry e with
            consecFail := 0#4, probeCount := satInc (s.entry e).probeCount
            probeTimer := { beats := s.table.probeInterval, passed := 0 } }) } }) ∧
    (x.kind = .probe → s.judgeReply x f = (.ok, some .done) →
      ∀ (i : SlotId) (behind : List SlotId) (y : Slot), (s.entry e).openAction = some i →
        (s.entry e).pendingList = i :: behind → s.slot i = some y → y.handle = none → SlotsListed s →
        (s.closeReply f).exchange = none ∧
        (s.closeReply f).entry e = { s.entry e with
          state := .ready, consecFail := 0#4, openAction := none
          probeTimer := { beats := 0#8, passed := 0 }, pendingList := behind.dropWhile s.marked } ∧
        HeadCompleted s (s.closeReply f) e i behind
          { tag := y.tag, kind := y.kind, address := y.address, outcome := .doneOk, attempts := y.attempts
            detail := x.firstPayload.getD 0#8, handle := none, extent := (s.entry e).probeCount.toNat } ∧
        SameBlocks s (s.closeReply f) ∧ (s.closeReply f).host = s.host)

/-- The decision on a sound inbound DATA (sections 2.5, 8.2): DUPLICATE by its bit, ahead of its length (assumption
17), else LONG, SHORT_RECORD, NO_ROOM or ACCEPTED in that order; the flip of rx_expect; the record's place on the
Inbound List, or the arrival's handle and blocks returned; and the exchange in ANSWER_GUARD with its decision. -/
def Obligations.InboundDataIsDecided : Prop :=
  ∀ (s : State) (x : Exchange) (f : InFrame) (e : EntryId) (h : Header), s.exchange = some x →
    x.place = .station e → (x.kind = .poll ∨ x.kind = .roundPoll) → x.header = some h →
    s.judgeReply x f = (.ok, some .data) →
    let payload := f.count - 5
    let entry := s.entry e
    let t := s.closeReply f
    let decided : Verdict → Bool → Prop := fun v flips =>
      t.exchange = some { x with
        phase := .answerGuard, outcome := some .ok, decision := some ⟨v, h.ctrl.getLsbD 4, payload⟩ } ∧
      t.entry e = { entry with
        consecFail := 0#4, rxExpect := if flips then !entry.rxExpect else entry.rxExpect
        duplicates := if v = .duplicate then satInc entry.duplicates else entry.duplicates } ∧
      t.inbound.arrival = none ∧ t.queue = s.queue ∧ t.command = s.command ∧ t.line = s.line ∧
      t.arbiter = s.arbiter ∧ (∀ j, j ≠ e → t.entry j = s.entry j) ∧
      t.table = { s.table with entries := t.table.entries } ∧ t.resetHeld = s.resetHeld ∧
      t.lastClose = s.lastClose ∧ t.readData = s.readData ∧ t.pending = s.pending
    let discarded : Prop :=
      t.inbound.list = s.inbound.list ∧
      (s.inbound.arrival.bind Arrival.handle = none → t.store = s.store ∧ t.host = s.host) ∧
      ∀ a ∈ s.inbound.arrival, ∀ g ∈ a.handle, t.record g = Descriptor.free ∧
        (∀ k, k ≠ g → t.record k = s.record k) ∧ BlocksReturned s t (s.record g).chain
    let storing : Handle → Prop := fun g =>
      ∃ a ∈ s.inbound.arrival, a.stop = none ∧ a.handle = some g
    (h.ctrl.getLsbD 4 ≠ entry.rxExpect → decided .duplicate false ∧ discarded) ∧
    (h.ctrl.getLsbD 4 = entry.rxExpect →
      (entry.inboundLimit < payload → decided .long true ∧ discarded) ∧
      (payload < entry.inboundLimit → entry.lengthMode = .exact → decided .shortRecord true ∧ discarded) ∧
      (payload ≤ entry.inboundLimit → (entry.lengthMode = .exact → payload = entry.inboundLimit) →
        (∀ a ∈ s.inbound.arrival, a.stop = some .noHandle → a.handle = none →
          decided (.noRoom true) false ∧ discarded) ∧
        (∀ a ∈ s.inbound.arrival, a.stop = some .noBlock → decided (.noRoom false) false ∧ discarded) ∧
        (∀ g, storing g → decided (.accepted g) true ∧ t.inbound.list = s.inbound.list ++ [g] ∧
          t.record g = { s.record g with state := .inbound, length := payload } ∧
          (∀ k, k ≠ g → t.record k = s.record k) ∧ SameBlocks s t ∧ t.host = s.host)))

/-- A payload byte handed to a STORING arrival (section 8.1): at the limit storing stops; at a multiple of 32 it
takes the head block of the free list, or stops for want of one; otherwise the byte is written at its place,
every other byte of the store as it was. A DRAINING arrival only counts it, and without an arrival it is dropped.
What a body byte of a reply's frame hands over (sections 2.5, 5.5, 8.1): the third the header, with which an
arrival begins in the lowest FREE handle, or with none, when the header is that of the record expected; the sixth
and every later one the payload byte it releases, the first of them kept as the reply's reason or result. That
seen has no bound is the model's choice (assumption 23). -/
def Obligations.PayloadBytesAreStored : Prop :=
  (∀ (s : State) (limit : Nat) (v : Byte), s.inbound.arrival = none → s.takePayloadByte limit v = s) ∧
  (∀ (s : State) (a : Arrival) (limit : Nat) (v : Byte), s.inbound.arrival = some a →
    BytesCanonical s →
    let t := s.takePayloadByte limit v
    let counted : Option StopCause → State := fun c =>
      { s with inbound := { s.inbound with arrival := some { a with seen := a.seen + 1, stop := c } } }
    (a.stop ≠ none ∨ a.handle = none → t = counted a.stop) ∧
    (a.stop = none → ∀ h ∈ a.handle,
      (limit ≤ a.seen → t = counted (some .limit)) ∧
      (a.seen < limit → a.seen % 32 = 0 → s.store.freeList = [] → t = counted (some .noBlock)) ∧
      (a.seen < limit →
        (a.seen % 32 = 0 → s.store.freeList ≠ [] ∧ (s.record h).chain.length = a.seen / 32) →
        (a.seen % 32 ≠ 0 → (s.record h).chain.length = a.seen / 32 + 1) →
        ∀ b : Block, (a.seen % 32 = 0 → s.store.freeList.head? = some b) →
          (a.seen % 32 ≠ 0 → (s.record h).chain.getLast? = some b) →
          t.inbound = (counted none).inbound ∧
          t.record h = { s.record h with
            length := (s.record h).length + 1
            chain := if a.seen % 32 = 0 then (s.record h).chain ++ [b] else (s.record h).chain } ∧
          (∀ g, g ≠ h → t.record g = s.record g) ∧
          t.store.freeList = (if a.seen % 32 = 0 then s.store.freeList.tail else s.store.freeList) ∧
          (∀ adr : Nat, readByte t.store.bytes adr =
            if adr = 32 * b.val + a.seen % 32 then v else readByte s.store.bytes adr) ∧
          t.store.low = s.store.low ∧ t.store.high = s.store.high ∧
          t.store.restraint = (if a.seen % 32 = 0 ∧ s.store.freeList.length - 1 ≤ s.store.low
            then .restrained else s.store.restraint) ∧
          t.host = { s.host with
            restraintCause := s.host.restraintCause || decide (t.store.restraint ≠ s.store.restraint) } ∧
          SameOutsideStore s t))) ∧
  (∀ (s : State) (f : InFrame) (x : Exchange) (e : EntryId) (v w : Byte), s.resetHeld = false →
    s.line.lineHeld = false → s.line.rx = .frame f → f.dest = .reply → f.oversize = false → f.count < 485 →
    s.exchange = some x → x.place = .station e →
    ((f.shiftPending = false ∧ v ≠ 0xE0#8 ∧ v ≠ 0xE1#8 ∧ v ≠ 0xE2#8 ∧ w = v) ∨
      (f.shiftPending = true ∧ (v = 0xEF#8 ∨ v = 0xEE#8 ∨ v = 0xED#8) ∧ w = v ^^^ 0x0F#8)) →
    let hands : State → Prop := fun t => Happens (.characterReceived v (evenParity v) true) s t
    let kept : State :=
      { s with line := { s.line with
        guardTimer := s.line.guardTime, gapTimer := s.line.gapTime, rx := .frame (heldFrame f w) } }
    (f.count ≠ 2 → f.count < 5 → hands kept) ∧
    (f.count = 2 → ∀ dest src : Byte, f.head = [dest, src] →
      let headed : State := { kept with exchange := some { x with header := some ⟨dest, src, w⟩ } }
      let expected := f.restarted = false ∧ s.inbound.arrival = none ∧ (x.kind = .poll ∨ x.kind = .roundPoll) ∧
        dest = 0#8 ∧ src = (s.entry e).address.getD 0#8 ∧ w.extractLsb' 5 3 = 0#3 ∧ w.extractLsb' 0 4 = 1#4 ∧
        w.getLsbD 4 = (s.entry e).rxExpect
      (¬ expected → hands headed) ∧
      (expected → (∀ h, (s.record h).state ≠ .free) → hands
        { headed with inbound := { s.inbound with
          arrival := some { handle := none, source := src, seen := 0, stop := some .noHandle } } }) ∧
      (expected → ∀ h : Handle, (s.record h).state = .free →
        (∀ g : Handle, g.val < h.val → (s.record g).state ≠ .free) → hands
        { headed with
          inbound := { s.inbound with
            arrival := some { handle := some h, source := src, seen := 0, stop := none } }
          store := { s.store with descriptors := (s.store.descriptors.set h
            { state := .arriving, length := 0, chain := [], origin := src, keep := false }) } })) ∧
    (5 ≤ f.count → f.newer ≠ none → ∀ q ∈ f.older,
      hands (State.takePayloadByte
        { kept with exchange := some { x with firstPayload := some (x.firstPayload.getD q) } }
        (s.entry e).inboundLimit q)))

/-- The remaining happenings of the line and of the long timers (sections 5.1, 5.3, 5.5, 4.1, 4.7, 4.8, 3.4): the
input's return reloads the guard timer and ends the hold; the next character is coded, begins and joins the echo
list; the transmitter is QUIET after its last character; DRAIN ends in HUNT; a poll round begins; a station's
timer stops. A transmitter with three outstanding echoes begins no character (assumption 20). A happening that cannot
occur in the state it finds changes nothing (assumption 5). -/
def Obligations.LineAndTimerHappenings : Prop :=
  ∀ s : State, s.resetHeld = false →
    (s.line.lineHeld = true → Happens .inputReturnAfterStopError s
      { s with line := { s.line with guardTimer := s.line.guardTime, lineHeld := false } }) ∧
    (s.line.lineHeld = false → Happens .inputReturnAfterStopError s s) ∧
    (∀ y ∈ s.line.tx,
      (y.isEnd = false → y.stopRequested = false → s.line.echoList.length < 3 →
        Happens .transmitCharacter s
          { s with line := { s.line with
            tx := some (s.nextCharacter y)
            echoList := s.line.echoList ++ [{ value := (s.nextCharacter y).current, deadline := 2 }] } }) ∧
      ((y.isEnd = true ∨ y.stopRequested = true) → Happens .transmitCharacter s s ∧
        Happens .frameSent s { s with line := { s.line with tx := none } }) ∧
      (y.isEnd = false → y.stopRequested = false → Happens .frameSent s s)) ∧
    (3 ≤ s.line.echoList.length ∨ s.line.tx = none → Happens .transmitCharacter s s) ∧
    (s.line.tx = none → Happens .frameSent s s) ∧
    (s.line.rx = .drain → s.line.tx = none →
      Happens .drainEnd s { s with line := { s.line with rx := .hunt } }) ∧
    ((s.line.rx ≠ .drain ∨ s.line.tx ≠ none) → Happens .drainEnd s s) ∧
    (s.arbiter.pollTimer.beats ≠ 0#8 → Happens .pollPeriodExpiry s
      { s with arbiter := { s.arbiter with
        pollTimer := { beats := 0#8, passed := 0 }, roundInProgress := true, roundPosition := 0 } }) ∧
    (s.arbiter.pollTimer.beats = 0#8 → Happens .pollPeriodExpiry s s) ∧
    ∀ e : EntryId,
      Happens (.backoffExpiry e) s
        { s with table := { s.table with entries := (s.table.entries.set e
          { s.entry e with backoffTimer := { beats := 0#8, passed := 0 } }) } } ∧
      Happens (.probeTimerExpiry e) s
        { s with table := { s.table with entries := (s.table.entries.set e
          { s.entry e with probeTimer := { beats := 0#8, passed := 0 } }) } }

/-! ### Invariants of every step -/

/-- The setup registers stay in their ranges and the window offset even, and the poll period timer never runs while
a round is in progress: an invariant of every step (sections 3.4, 4.7, 4.8, 5.1, 5.6, 10.3), over states in which the
turn the model keeps of a close (assumption 21) has round position 0 while no round is in progress, which every step
keeps too. -/
def Obligations.SetupStaysInRange : Prop :=
  ∀ s t : State, SetupInRange s ∧ RoundExcludesTimer s ∧ TurnKeptSound s → step s = .next t →
    SetupInRange t ∧ RoundExcludesTimer t ∧ TurnKeptSound t

/-- The restraint state follows the marks, and the bytes of the store stay in their canonical form: an invariant of
every step (section 7.5). -/
def Obligations.RestraintFollowsTheMarks : Prop :=
  ∀ s t : State, RestraintFollowsMarks s ∧ BytesCanonical s → step s = .next t →
    RestraintFollowsMarks t ∧ BytesCanonical t

/-- The completion-ready flag and the linger timer follow the count (section 9.4), and the command slots in use
and the waiting completions never exceed 32 together (section 9.2): invariants of every step. -/
def Obligations.CompletionsStayCountedAndBounded : Prop :=
  ∀ s t : State, CoalescingFollowsCount s ∧ CommitmentBounded s → step s = .next t →
    CoalescingFollowsCount t ∧ CommitmentBounded t

/-- The Station Table stays sound, and every slot in use stands in exactly its own list: an invariant of every step
(sections 1.1, 1.3, 6.3, 9.2). -/
def Obligations.TableAndListsStaySound : Prop :=
  ∀ s t : State, ListsSound s → step s = .next t → ListsSound t

/-- Every block is in exactly one place and every record has exactly its owner: an invariant of every step
(sections 7.1, 7.2, 7.4, 8.3). -/
def Obligations.BlocksAndRecordsStayOwned : Prop :=
  ∀ s t : State, StoreSound s → step s = .next t → StoreSound t

/-- Every record's chain is as long as its length asks, and an arrival stores exactly what its reply has released:
an invariant of every step, over states whose blocks, records, table and lists are sound (sections 7.2, 8.1). -/
def Obligations.ArrivalsStoreWhatIsReleased : Prop :=
  ∀ s t : State, RecordsSound s ∧ ListsSound s → step s = .next t → RecordsSound t

/-- Every invariant holds at reset. -/
def Obligations.InvariantsHoldAtReset : Prop :=
  SetupInRange State.reset ∧ RoundExcludesTimer State.reset ∧ TurnKeptSound State.reset ∧
  RestraintFollowsMarks State.reset ∧ BytesCanonical State.reset ∧ CoalescingFollowsCount State.reset ∧
  CommitmentBounded State.reset ∧ ListsSound State.reset ∧ RecordsSound State.reset ∧ NoWorkWaits State.reset

end
end

