-- ==== Sys2Proof/Laws/State.lean ====
section
/-! SUPPORT. The small lemmas of the named updates: for each update, one lemma per field of the state, true by
rfl, so that no proof unfolds a record update. -/

namespace Sys2Proof.Machine

variable (s : State)

/-! ### setEntry (R1) -/

@[simp] theorem State.setEntry_host (i : EntryId) (e : Entry) : (s.setEntry i e).host = s.host := rfl
@[simp] theorem State.setEntry_command (i : EntryId) (e : Entry) : (s.setEntry i e).command = s.command := rfl
@[simp] theorem State.setEntry_queue (i : EntryId) (e : Entry) : (s.setEntry i e).queue = s.queue := rfl
@[simp] theorem State.setEntry_table_entries (i : EntryId) (e : Entry) :
    (s.setEntry i e).table.entries = s.table.entries.set i e := rfl
@[simp] theorem State.setEntry_table_lostSummary (i : EntryId) (e : Entry) :
    (s.setEntry i e).table.lostSummary = s.table.lostSummary := rfl
@[simp] theorem State.setEntry_table_probeInterval (i : EntryId) (e : Entry) :
    (s.setEntry i e).table.probeInterval = s.table.probeInterval := rfl
@[simp] theorem State.setEntry_table_probeLimit (i : EntryId) (e : Entry) :
    (s.setEntry i e).table.probeLimit = s.table.probeLimit := rfl
@[simp] theorem State.setEntry_table_holdBackoff (i : EntryId) (e : Entry) :
    (s.setEntry i e).table.holdBackoff = s.table.holdBackoff := rfl
@[simp] theorem State.setEntry_arbiter (i : EntryId) (e : Entry) : (s.setEntry i e).arbiter = s.arbiter := rfl
@[simp] theorem State.setEntry_exchange (i : EntryId) (e : Entry) : (s.setEntry i e).exchange = s.exchange := rfl
@[simp] theorem State.setEntry_line (i : EntryId) (e : Entry) : (s.setEntry i e).line = s.line := rfl
@[simp] theorem State.setEntry_store (i : EntryId) (e : Entry) : (s.setEntry i e).store = s.store := rfl
@[simp] theorem State.setEntry_inbound (i : EntryId) (e : Entry) : (s.setEntry i e).inbound = s.inbound := rfl
@[simp] theorem State.setEntry_resetHeld (i : EntryId) (e : Entry) : (s.setEntry i e).resetHeld = s.resetHeld := rfl
@[simp] theorem State.setEntry_readData (i : EntryId) (e : Entry) : (s.setEntry i e).readData = s.readData := rfl
@[simp] theorem State.setEntry_lastClose (i : EntryId) (e : Entry) : (s.setEntry i e).lastClose = s.lastClose := rfl
@[simp] theorem State.setEntry_pending (i : EntryId) (e : Entry) : (s.setEntry i e).pending = s.pending := rfl
@[simp] theorem State.setEntry_slot (i : EntryId) (e : Entry) (j : SlotId) : (s.setEntry i e).slot j = s.slot j := rfl
@[simp] theorem State.setEntry_record (i : EntryId) (e : Entry) (g : Handle) :
    (s.setEntry i e).record g = s.record g := rfl
@[simp] theorem State.setEntry_param (i : EntryId) (e : Entry) (p : Fin 6) :
    (s.setEntry i e).param p = s.param p := rfl
@[simp] theorem State.setEntry_freeCount (i : EntryId) (e : Entry) : (s.setEntry i e).freeCount = s.freeCount := rfl

/-! ### setSlot (R156) -/

@[simp] theorem State.setSlot_host (i : SlotId) (x : Option Slot) : (s.setSlot i x).host = s.host := rfl
@[simp] theorem State.setSlot_command_params (i : SlotId) (x : Option Slot) :
    (s.setSlot i x).command.params = s.command.params := rfl
@[simp] theorem State.setSlot_command_result (i : SlotId) (x : Option Slot) :
    (s.setSlot i x).command.result = s.command.result := rfl
@[simp] theorem State.setSlot_command_slots (i : SlotId) (x : Option Slot) :
    (s.setSlot i x).command.slots = s.command.slots.set i x := rfl
@[simp] theorem State.setSlot_command_broadcastList (i : SlotId) (x : Option Slot) :
    (s.setSlot i x).command.broadcastList = s.command.broadcastList := rfl
@[simp] theorem State.setSlot_queue (i : SlotId) (x : Option Slot) : (s.setSlot i x).queue = s.queue := rfl
@[simp] theorem State.setSlot_table (i : SlotId) (x : Option Slot) : (s.setSlot i x).table = s.table := rfl
@[simp] theorem State.setSlot_arbiter (i : SlotId) (x : Option Slot) : (s.setSlot i x).arbiter = s.arbiter := rfl
@[simp] theorem State.setSlot_exchange (i : SlotId) (x : Option Slot) : (s.setSlot i x).exchange = s.exchange := rfl
@[simp] theorem State.setSlot_line (i : SlotId) (x : Option Slot) : (s.setSlot i x).line = s.line := rfl
@[simp] theorem State.setSlot_store (i : SlotId) (x : Option Slot) : (s.setSlot i x).store = s.store := rfl
@[simp] theorem State.setSlot_inbound (i : SlotId) (x : Option Slot) : (s.setSlot i x).inbound = s.inbound := rfl
@[simp] theorem State.setSlot_resetHeld (i : SlotId) (x : Option Slot) :
    (s.setSlot i x).resetHeld = s.resetHeld := rfl
@[simp] theorem State.setSlot_readData (i : SlotId) (x : Option Slot) : (s.setSlot i x).readData = s.readData := rfl
@[simp] theorem State.setSlot_lastClose (i : SlotId) (x : Option Slot) : (s.setSlot i x).lastClose = s.lastClose := rfl
@[simp] theorem State.setSlot_pending (i : SlotId) (x : Option Slot) : (s.setSlot i x).pending = s.pending := rfl
@[simp] theorem State.setSlot_entry (i : SlotId) (x : Option Slot) (j : EntryId) :
    (s.setSlot i x).entry j = s.entry j := rfl
@[simp] theorem State.setSlot_record (i : SlotId) (x : Option Slot) (g : Handle) :
    (s.setSlot i x).record g = s.record g := rfl
@[simp] theorem State.setSlot_param (i : SlotId) (x : Option Slot) (p : Fin 6) :
    (s.setSlot i x).param p = s.param p := rfl
@[simp] theorem State.setSlot_freeCount (i : SlotId) (x : Option Slot) :
    (s.setSlot i x).freeCount = s.freeCount := rfl

/-! ### setRecord (R120) -/

@[simp] theorem State.setRecord_host (h : Handle) (d : Descriptor) : (s.setRecord h d).host = s.host := rfl
@[simp] theorem State.setRecord_command (h : Handle) (d : Descriptor) : (s.setRecord h d).command = s.command := rfl
@[simp] theorem State.setRecord_queue (h : Handle) (d : Descriptor) : (s.setRecord h d).queue = s.queue := rfl
@[simp] theorem State.setRecord_table (h : Handle) (d : Descriptor) : (s.setRecord h d).table = s.table := rfl
@[simp] theorem State.setRecord_arbiter (h : Handle) (d : Descriptor) : (s.setRecord h d).arbiter = s.arbiter := rfl
@[simp] theorem State.setRecord_exchange (h : Handle) (d : Descriptor) :
    (s.setRecord h d).exchange = s.exchange := rfl
@[simp] theorem State.setRecord_line (h : Handle) (d : Descriptor) : (s.setRecord h d).line = s.line := rfl
@[simp] theorem State.setRecord_store_descriptors (h : Handle) (d : Descriptor) :
    (s.setRecord h d).store.descriptors = s.store.descriptors.set h d := rfl
@[simp] theorem State.setRecord_store_freeList (h : Handle) (d : Descriptor) :
    (s.setRecord h d).store.freeList = s.store.freeList := rfl
@[simp] theorem State.setRecord_store_bytes (h : Handle) (d : Descriptor) :
    (s.setRecord h d).store.bytes = s.store.bytes := rfl
@[simp] theorem State.setRecord_store_low (h : Handle) (d : Descriptor) :
    (s.setRecord h d).store.low = s.store.low := rfl
@[simp] theorem State.setRecord_store_high (h : Handle) (d : Descriptor) :
    (s.setRecord h d).store.high = s.store.high := rfl
@[simp] theorem State.setRecord_store_restraint (h : Handle) (d : Descriptor) :
    (s.setRecord h d).store.restraint = s.store.restraint := rfl
@[simp] theorem State.setRecord_inbound (h : Handle) (d : Descriptor) : (s.setRecord h d).inbound = s.inbound := rfl
@[simp] theorem State.setRecord_resetHeld (h : Handle) (d : Descriptor) :
    (s.setRecord h d).resetHeld = s.resetHeld := rfl
@[simp] theorem State.setRecord_readData (h : Handle) (d : Descriptor) :
    (s.setRecord h d).readData = s.readData := rfl
@[simp] theorem State.setRecord_lastClose (h : Handle) (d : Descriptor) :
    (s.setRecord h d).lastClose = s.lastClose := rfl
@[simp] theorem State.setRecord_pending (h : Handle) (d : Descriptor) : (s.setRecord h d).pending = s.pending := rfl
@[simp] theorem State.setRecord_entry (h : Handle) (d : Descriptor) (j : EntryId) :
    (s.setRecord h d).entry j = s.entry j := rfl
@[simp] theorem State.setRecord_slot (h : Handle) (d : Descriptor) (j : SlotId) :
    (s.setRecord h d).slot j = s.slot j := rfl
@[simp] theorem State.setRecord_param (h : Handle) (d : Descriptor) (p : Fin 6) :
    (s.setRecord h d).param p = s.param p := rfl
@[simp] theorem State.setRecord_freeCount (h : Handle) (d : Descriptor) :
    (s.setRecord h d).freeCount = s.freeCount := rfl

/-! ### setExchange (R22) -/

@[simp] theorem State.setExchange_host (x : Option Exchange) : (s.setExchange x).host = s.host := rfl
@[simp] theorem State.setExchange_command (x : Option Exchange) : (s.setExchange x).command = s.command := rfl
@[simp] theorem State.setExchange_queue (x : Option Exchange) : (s.setExchange x).queue = s.queue := rfl
@[simp] theorem State.setExchange_table (x : Option Exchange) : (s.setExchange x).table = s.table := rfl
@[simp] theorem State.setExchange_arbiter (x : Option Exchange) : (s.setExchange x).arbiter = s.arbiter := rfl
@[simp] theorem State.setExchange_exchange (x : Option Exchange) : (s.setExchange x).exchange = x := rfl
@[simp] theorem State.setExchange_line (x : Option Exchange) : (s.setExchange x).line = s.line := rfl
@[simp] theorem State.setExchange_store (x : Option Exchange) : (s.setExchange x).store = s.store := rfl
@[simp] theorem State.setExchange_inbound (x : Option Exchange) : (s.setExchange x).inbound = s.inbound := rfl
@[simp] theorem State.setExchange_resetHeld (x : Option Exchange) : (s.setExchange x).resetHeld = s.resetHeld := rfl
@[simp] theorem State.setExchange_readData (x : Option Exchange) : (s.setExchange x).readData = s.readData := rfl
@[simp] theorem State.setExchange_lastClose (x : Option Exchange) : (s.setExchange x).lastClose = s.lastClose := rfl
@[simp] theorem State.setExchange_pending (x : Option Exchange) : (s.setExchange x).pending = s.pending := rfl
@[simp] theorem State.setExchange_entry (x : Option Exchange) (j : EntryId) :
    (s.setExchange x).entry j = s.entry j := rfl
@[simp] theorem State.setExchange_slot (x : Option Exchange) (j : SlotId) : (s.setExchange x).slot j = s.slot j := rfl
@[simp] theorem State.setExchange_record (x : Option Exchange) (g : Handle) :
    (s.setExchange x).record g = s.record g := rfl
@[simp] theorem State.setExchange_param (x : Option Exchange) (p : Fin 6) :
    (s.setExchange x).param p = s.param p := rfl
@[simp] theorem State.setExchange_freeCount (x : Option Exchange) : (s.setExchange x).freeCount = s.freeCount := rfl

/-! ### setReceiver (R90) -/

@[simp] theorem State.setReceiver_host (r : Receiver) : (s.setReceiver r).host = s.host := rfl
@[simp] theorem State.setReceiver_command (r : Receiver) : (s.setReceiver r).command = s.command := rfl
@[simp] theorem State.setReceiver_queue (r : Receiver) : (s.setReceiver r).queue = s.queue := rfl
@[simp] theorem State.setReceiver_table (r : Receiver) : (s.setReceiver r).table = s.table := rfl
@[simp] theorem State.setReceiver_arbiter (r : Receiver) : (s.setReceiver r).arbiter = s.arbiter := rfl
@[simp] theorem State.setReceiver_exchange (r : Receiver) : (s.setReceiver r).exchange = s.exchange := rfl
@[simp] theorem State.setReceiver_line_tx (r : Receiver) : (s.setReceiver r).line.tx = s.line.tx := rfl
@[simp] theorem State.setReceiver_line_echoList (r : Receiver) :
    (s.setReceiver r).line.echoList = s.line.echoList := rfl
@[simp] theorem State.setReceiver_line_rx (r : Receiver) : (s.setReceiver r).line.rx = r := rfl
@[simp] theorem State.setReceiver_line_lineHeld (r : Receiver) :
    (s.setReceiver r).line.lineHeld = s.line.lineHeld := rfl
@[simp] theorem State.setReceiver_line_guardTimer (r : Receiver) :
    (s.setReceiver r).line.guardTimer = s.line.guardTimer := rfl
@[simp] theorem State.setReceiver_line_replyTimer (r : Receiver) :
    (s.setReceiver r).line.replyTimer = s.line.replyTimer := rfl
@[simp] theorem State.setReceiver_line_gapTimer (r : Receiver) :
    (s.setReceiver r).line.gapTimer = s.line.gapTimer := rfl
@[simp] theorem State.setReceiver_line_rate (r : Receiver) : (s.setReceiver r).line.rate = s.line.rate := rfl
@[simp] theorem State.setReceiver_line_guardTime (r : Receiver) :
    (s.setReceiver r).line.guardTime = s.line.guardTime := rfl
@[simp] theorem State.setReceiver_line_gapTime (r : Receiver) : (s.setReceiver r).line.gapTime = s.line.gapTime := rfl
@[simp] theorem State.setReceiver_line_replyTimeout (r : Receiver) :
    (s.setReceiver r).line.replyTimeout = s.line.replyTimeout := rfl
@[simp] theorem State.setReceiver_line_stray (r : Receiver) : (s.setReceiver r).line.stray = s.line.stray := rfl
@[simp] theorem State.setReceiver_line_coding (r : Receiver) : (s.setReceiver r).line.coding = s.line.coding := rfl
@[simp] theorem State.setReceiver_line_check (r : Receiver) : (s.setReceiver r).line.check = s.line.check := rfl
@[simp] theorem State.setReceiver_line_echo (r : Receiver) : (s.setReceiver r).line.echo = s.line.echo := rfl
@[simp] theorem State.setReceiver_store (r : Receiver) : (s.setReceiver r).store = s.store := rfl
@[simp] theorem State.setReceiver_inbound (r : Receiver) : (s.setReceiver r).inbound = s.inbound := rfl
@[simp] theorem State.setReceiver_resetHeld (r : Receiver) : (s.setReceiver r).resetHeld = s.resetHeld := rfl
@[simp] theorem State.setReceiver_readData (r : Receiver) : (s.setReceiver r).readData = s.readData := rfl
@[simp] theorem State.setReceiver_lastClose (r : Receiver) : (s.setReceiver r).lastClose = s.lastClose := rfl
@[simp] theorem State.setReceiver_pending (r : Receiver) : (s.setReceiver r).pending = s.pending := rfl
@[simp] theorem State.setReceiver_entry (r : Receiver) (j : EntryId) : (s.setReceiver r).entry j = s.entry j := rfl
@[simp] theorem State.setReceiver_slot (r : Receiver) (j : SlotId) : (s.setReceiver r).slot j = s.slot j := rfl
@[simp] theorem State.setReceiver_record (r : Receiver) (g : Handle) : (s.setReceiver r).record g = s.record g := rfl
@[simp] theorem State.setReceiver_param (r : Receiver) (p : Fin 6) : (s.setReceiver r).param p = s.param p := rfl
@[simp] theorem State.setReceiver_freeCount (r : Receiver) : (s.setReceiver r).freeCount = s.freeCount := rfl

/-! ### setParams (R153) -/

@[simp] theorem State.setParams_host (v : Vector Word 6) : (s.setParams v).host = s.host := rfl
@[simp] theorem State.setParams_command_params (v : Vector Word 6) : (s.setParams v).command.params = v := rfl
@[simp] theorem State.setParams_command_result (v : Vector Word 6) :
    (s.setParams v).command.result = s.command.result := rfl
@[simp] theorem State.setParams_command_slots (v : Vector Word 6) :
    (s.setParams v).command.slots = s.command.slots := rfl
@[simp] theorem State.setParams_command_broadcastList (v : Vector Word 6) :
    (s.setParams v).command.broadcastList = s.command.broadcastList := rfl
@[simp] theorem State.setParams_queue (v : Vector Word 6) : (s.setParams v).queue = s.queue := rfl
@[simp] theorem State.setParams_table (v : Vector Word 6) : (s.setParams v).table = s.table := rfl
@[simp] theorem State.setParams_arbiter (v : Vector Word 6) : (s.setParams v).arbiter = s.arbiter := rfl
@[simp] theorem State.setParams_exchange (v : Vector Word 6) : (s.setParams v).exchange = s.exchange := rfl
@[simp] theorem State.setParams_line (v : Vector Word 6) : (s.setParams v).line = s.line := rfl
@[simp] theorem State.setParams_store (v : Vector Word 6) : (s.setParams v).store = s.store := rfl
@[simp] theorem State.setParams_inbound (v : Vector Word 6) : (s.setParams v).inbound = s.inbound := rfl
@[simp] theorem State.setParams_resetHeld (v : Vector Word 6) : (s.setParams v).resetHeld = s.resetHeld := rfl
@[simp] theorem State.setParams_readData (v : Vector Word 6) : (s.setParams v).readData = s.readData := rfl
@[simp] theorem State.setParams_lastClose (v : Vector Word 6) : (s.setParams v).lastClose = s.lastClose := rfl
@[simp] theorem State.setParams_pending (v : Vector Word 6) : (s.setParams v).pending = s.pending := rfl
@[simp] theorem State.setParams_entry (v : Vector Word 6) (j : EntryId) : (s.setParams v).entry j = s.entry j := rfl
@[simp] theorem State.setParams_slot (v : Vector Word 6) (j : SlotId) : (s.setParams v).slot j = s.slot j := rfl
@[simp] theorem State.setParams_record (v : Vector Word 6) (g : Handle) : (s.setParams v).record g = s.record g := rfl
@[simp] theorem State.setParams_freeCount (v : Vector Word 6) : (s.setParams v).freeCount = s.freeCount := rfl

/-! ### latchStationLost (R109) -/

@[simp] theorem State.latchStationLost_host_run (i : EntryId) : (s.latchStationLost i).host.run = s.host.run := rfl
@[simp] theorem State.latchStationLost_host_causeEnable (i : EntryId) :
    (s.latchStationLost i).host.causeEnable = s.host.causeEnable := rfl
@[simp] theorem State.latchStationLost_host_stationLost (i : EntryId) :
    (s.latchStationLost i).host.stationLost = true := rfl
@[simp] theorem State.latchStationLost_host_restraintCause (i : EntryId) :
    (s.latchStationLost i).host.restraintCause = s.host.restraintCause := rfl
@[simp] theorem State.latchStationLost_host_hostFault (i : EntryId) :
    (s.latchStationLost i).host.hostFault = s.host.hostFault := rfl
@[simp] theorem State.latchStationLost_host_faultKind (i : EntryId) :
    (s.latchStationLost i).host.faultKind = s.host.faultKind := rfl
@[simp] theorem State.latchStationLost_host_winSelect (i : EntryId) :
    (s.latchStationLost i).host.winSelect = s.host.winSelect := rfl
@[simp] theorem State.latchStationLost_host_winOffset (i : EntryId) :
    (s.latchStationLost i).host.winOffset = s.host.winOffset := rfl
@[simp] theorem State.latchStationLost_command (i : EntryId) : (s.latchStationLost i).command = s.command := rfl
@[simp] theorem State.latchStationLost_queue (i : EntryId) : (s.latchStationLost i).queue = s.queue := rfl
@[simp] theorem State.latchStationLost_table_entries (i : EntryId) :
    (s.latchStationLost i).table.entries = s.table.entries := rfl
@[simp] theorem State.latchStationLost_table_lostSummary (i : EntryId) :
    (s.latchStationLost i).table.lostSummary = s.table.lostSummary ||| (1#16 <<< i.val) := rfl
@[simp] theorem State.latchStationLost_table_probeInterval (i : EntryId) :
    (s.latchStationLost i).table.probeInterval = s.table.probeInterval := rfl
@[simp] theorem State.latchStationLost_table_probeLimit (i : EntryId) :
    (s.latchStationLost i).table.probeLimit = s.table.probeLimit := rfl
@[simp] theorem State.latchStationLost_table_holdBackoff (i : EntryId) :
    (s.latchStationLost i).table.holdBackoff = s.table.holdBackoff := rfl
@[simp] theorem State.latchStationLost_arbiter (i : EntryId) : (s.latchStationLost i).arbiter = s.arbiter := rfl
@[simp] theorem State.latchStationLost_exchange (i : EntryId) : (s.latchStationLost i).exchange = s.exchange := rfl
@[simp] theorem State.latchStationLost_line (i : EntryId) : (s.latchStationLost i).line = s.line := rfl
@[simp] theorem State.latchStationLost_store (i : EntryId) : (s.latchStationLost i).store = s.store := rfl
@[simp] theorem State.latchStationLost_inbound (i : EntryId) : (s.latchStationLost i).inbound = s.inbound := rfl
@[simp] theorem State.latchStationLost_resetHeld (i : EntryId) : (s.latchStationLost i).resetHeld = s.resetHeld := rfl
@[simp] theorem State.latchStationLost_readData (i : EntryId) : (s.latchStationLost i).readData = s.readData := rfl
@[simp] theorem State.latchStationLost_lastClose (i : EntryId) : (s.latchStationLost i).lastClose = s.lastClose := rfl
@[simp] theorem State.latchStationLost_pending (i : EntryId) : (s.latchStationLost i).pending = s.pending := rfl
@[simp] theorem State.latchStationLost_entry (i : EntryId) (j : EntryId) :
    (s.latchStationLost i).entry j = s.entry j := rfl
@[simp] theorem State.latchStationLost_slot (i : EntryId) (j : SlotId) :
    (s.latchStationLost i).slot j = s.slot j := rfl
@[simp] theorem State.latchStationLost_record (i : EntryId) (g : Handle) :
    (s.latchStationLost i).record g = s.record g := rfl
@[simp] theorem State.latchStationLost_param (i : EntryId) (p : Fin 6) :
    (s.latchStationLost i).param p = s.param p := rfl
@[simp] theorem State.latchStationLost_freeCount (i : EntryId) : (s.latchStationLost i).freeCount = s.freeCount := rfl

/-! ### hostFault (R183) -/

@[simp] theorem State.hostFault_host_run (k : FaultKind) : (s.hostFault k).host.run = s.host.run := rfl
@[simp] theorem State.hostFault_host_causeEnable (k : FaultKind) :
    (s.hostFault k).host.causeEnable = s.host.causeEnable := rfl
@[simp] theorem State.hostFault_host_stationLost (k : FaultKind) :
    (s.hostFault k).host.stationLost = s.host.stationLost := rfl
@[simp] theorem State.hostFault_host_restraintCause (k : FaultKind) :
    (s.hostFault k).host.restraintCause = s.host.restraintCause := rfl
@[simp] theorem State.hostFault_host_hostFault (k : FaultKind) : (s.hostFault k).host.hostFault = true := rfl
@[simp] theorem State.hostFault_host_faultKind (k : FaultKind) : (s.hostFault k).host.faultKind = k := rfl
@[simp] theorem State.hostFault_host_winSelect (k : FaultKind) :
    (s.hostFault k).host.winSelect = s.host.winSelect := rfl
@[simp] theorem State.hostFault_host_winOffset (k : FaultKind) :
    (s.hostFault k).host.winOffset = s.host.winOffset := rfl
@[simp] theorem State.hostFault_command (k : FaultKind) : (s.hostFault k).command = s.command := rfl
@[simp] theorem State.hostFault_queue (k : FaultKind) : (s.hostFault k).queue = s.queue := rfl
@[simp] theorem State.hostFault_table (k : FaultKind) : (s.hostFault k).table = s.table := rfl
@[simp] theorem State.hostFault_arbiter (k : FaultKind) : (s.hostFault k).arbiter = s.arbiter := rfl
@[simp] theorem State.hostFault_exchange (k : FaultKind) : (s.hostFault k).exchange = s.exchange := rfl
@[simp] theorem State.hostFault_line (k : FaultKind) : (s.hostFault k).line = s.line := rfl
@[simp] theorem State.hostFault_store (k : FaultKind) : (s.hostFault k).store = s.store := rfl
@[simp] theorem State.hostFault_inbound (k : FaultKind) : (s.hostFault k).inbound = s.inbound := rfl
@[simp] theorem State.hostFault_resetHeld (k : FaultKind) : (s.hostFault k).resetHeld = s.resetHeld := rfl
@[simp] theorem State.hostFault_readData (k : FaultKind) : (s.hostFault k).readData = s.readData := rfl
@[simp] theorem State.hostFault_lastClose (k : FaultKind) : (s.hostFault k).lastClose = s.lastClose := rfl
@[simp] theorem State.hostFault_pending (k : FaultKind) : (s.hostFault k).pending = s.pending := rfl
@[simp] theorem State.hostFault_entry (k : FaultKind) (j : EntryId) : (s.hostFault k).entry j = s.entry j := rfl
@[simp] theorem State.hostFault_slot (k : FaultKind) (j : SlotId) : (s.hostFault k).slot j = s.slot j := rfl
@[simp] theorem State.hostFault_record (k : FaultKind) (g : Handle) : (s.hostFault k).record g = s.record g := rfl
@[simp] theorem State.hostFault_param (k : FaultKind) (p : Fin 6) : (s.hostFault k).param p = s.param p := rfl
@[simp] theorem State.hostFault_freeCount (k : FaultKind) : (s.hostFault k).freeCount = s.freeCount := rfl

/-! ### accept (R154) -/

@[simp] theorem State.accept_host (v : BitVec 6) : (s.accept v).host = s.host := rfl
@[simp] theorem State.accept_command_params (v : BitVec 6) : (s.accept v).command.params = s.command.params := rfl
@[simp] theorem State.accept_command_result (v : BitVec 6) : (s.accept v).command.result = .accepted v := rfl
@[simp] theorem State.accept_command_slots (v : BitVec 6) : (s.accept v).command.slots = s.command.slots := rfl
@[simp] theorem State.accept_command_broadcastList (v : BitVec 6) :
    (s.accept v).command.broadcastList = s.command.broadcastList := rfl
@[simp] theorem State.accept_queue (v : BitVec 6) : (s.accept v).queue = s.queue := rfl
@[simp] theorem State.accept_table (v : BitVec 6) : (s.accept v).table = s.table := rfl
@[simp] theorem State.accept_arbiter (v : BitVec 6) : (s.accept v).arbiter = s.arbiter := rfl
@[simp] theorem State.accept_exchange (v : BitVec 6) : (s.accept v).exchange = s.exchange := rfl
@[simp] theorem State.accept_line (v : BitVec 6) : (s.accept v).line = s.line := rfl
@[simp] theorem State.accept_store (v : BitVec 6) : (s.accept v).store = s.store := rfl
@[simp] theorem State.accept_inbound (v : BitVec 6) : (s.accept v).inbound = s.inbound := rfl
@[simp] theorem State.accept_resetHeld (v : BitVec 6) : (s.accept v).resetHeld = s.resetHeld := rfl
@[simp] theorem State.accept_readData (v : BitVec 6) : (s.accept v).readData = s.readData := rfl
@[simp] theorem State.accept_lastClose (v : BitVec 6) : (s.accept v).lastClose = s.lastClose := rfl
@[simp] theorem State.accept_pending (v : BitVec 6) : (s.accept v).pending = s.pending := rfl
@[simp] theorem State.accept_entry (v : BitVec 6) (j : EntryId) : (s.accept v).entry j = s.entry j := rfl
@[simp] theorem State.accept_slot (v : BitVec 6) (j : SlotId) : (s.accept v).slot j = s.slot j := rfl
@[simp] theorem State.accept_record (v : BitVec 6) (g : Handle) : (s.accept v).record g = s.record g := rfl
@[simp] theorem State.accept_param (v : BitVec 6) (p : Fin 6) : (s.accept v).param p = s.param p := rfl
@[simp] theorem State.accept_freeCount (v : BitVec 6) : (s.accept v).freeCount = s.freeCount := rfl

/-! ### refuse (R155) -/

@[simp] theorem State.refuse_host (r : Reason) : (s.refuse r).host = s.host := rfl
@[simp] theorem State.refuse_command_params (r : Reason) : (s.refuse r).command.params = s.command.params := rfl
@[simp] theorem State.refuse_command_result (r : Reason) : (s.refuse r).command.result = .refused r := rfl
@[simp] theorem State.refuse_command_slots (r : Reason) : (s.refuse r).command.slots = s.command.slots := rfl
@[simp] theorem State.refuse_command_broadcastList (r : Reason) :
    (s.refuse r).command.broadcastList = s.command.broadcastList := rfl
@[simp] theorem State.refuse_queue (r : Reason) : (s.refuse r).queue = s.queue := rfl
@[simp] theorem State.refuse_table (r : Reason) : (s.refuse r).table = s.table := rfl
@[simp] theorem State.refuse_arbiter (r : Reason) : (s.refuse r).arbiter = s.arbiter := rfl
@[simp] theorem State.refuse_exchange (r : Reason) : (s.refuse r).exchange = s.exchange := rfl
@[simp] theorem State.refuse_line (r : Reason) : (s.refuse r).line = s.line := rfl
@[simp] theorem State.refuse_store (r : Reason) : (s.refuse r).store = s.store := rfl
@[simp] theorem State.refuse_inbound (r : Reason) : (s.refuse r).inbound = s.inbound := rfl
@[simp] theorem State.refuse_resetHeld (r : Reason) : (s.refuse r).resetHeld = s.resetHeld := rfl
@[simp] theorem State.refuse_readData (r : Reason) : (s.refuse r).readData = s.readData := rfl
@[simp] theorem State.refuse_lastClose (r : Reason) : (s.refuse r).lastClose = s.lastClose := rfl
@[simp] theorem State.refuse_pending (r : Reason) : (s.refuse r).pending = s.pending := rfl
@[simp] theorem State.refuse_entry (r : Reason) (j : EntryId) : (s.refuse r).entry j = s.entry j := rfl
@[simp] theorem State.refuse_slot (r : Reason) (j : SlotId) : (s.refuse r).slot j = s.slot j := rfl
@[simp] theorem State.refuse_record (r : Reason) (g : Handle) : (s.refuse r).record g = s.record g := rfl
@[simp] theorem State.refuse_param (r : Reason) (p : Fin 6) : (s.refuse r).param p = s.param p := rfl
@[simp] theorem State.refuse_freeCount (r : Reason) : (s.refuse r).freeCount = s.freeCount := rfl

/-! ### startSending (R86) -/

@[simp] theorem State.startSending_host (f : OutFrame) : (s.startSending f).host = s.host := rfl
@[simp] theorem State.startSending_command (f : OutFrame) : (s.startSending f).command = s.command := rfl
@[simp] theorem State.startSending_queue (f : OutFrame) : (s.startSending f).queue = s.queue := rfl
@[simp] theorem State.startSending_table (f : OutFrame) : (s.startSending f).table = s.table := rfl
@[simp] theorem State.startSending_arbiter (f : OutFrame) : (s.startSending f).arbiter = s.arbiter := rfl
@[simp] theorem State.startSending_exchange (f : OutFrame) : (s.startSending f).exchange = s.exchange := rfl
@[simp] theorem State.startSending_line_tx (f : OutFrame) :
    (s.startSending f).line.tx = some (f.begin s.line.rate) := rfl
@[simp] theorem State.startSending_line_echoList (f : OutFrame) :
    (s.startSending f).line.echoList = [echoOf Config.marker] := rfl
@[simp] theorem State.startSending_line_rx (f : OutFrame) : (s.startSending f).line.rx = .echo := rfl
@[simp] theorem State.startSending_line_lineHeld (f : OutFrame) :
    (s.startSending f).line.lineHeld = s.line.lineHeld := rfl
@[simp] theorem State.startSending_line_guardTimer (f : OutFrame) :
    (s.startSending f).line.guardTimer = s.line.guardTimer := rfl
@[simp] theorem State.startSending_line_replyTimer (f : OutFrame) :
    (s.startSending f).line.replyTimer = s.line.replyTimer := rfl
@[simp] theorem State.startSending_line_gapTimer (f : OutFrame) :
    (s.startSending f).line.gapTimer = s.line.gapTimer := rfl
@[simp] theorem State.startSending_line_rate (f : OutFrame) : (s.startSending f).line.rate = s.line.rate := rfl
@[simp] theorem State.startSending_line_guardTime (f : OutFrame) :
    (s.startSending f).line.guardTime = s.line.guardTime := rfl
@[simp] theorem State.startSending_line_gapTime (f : OutFrame) :
    (s.startSending f).line.gapTime = s.line.gapTime := rfl
@[simp] theorem State.startSending_line_replyTimeout (f : OutFrame) :
    (s.startSending f).line.replyTimeout = s.line.replyTimeout := rfl
@[simp] theorem State.startSending_line_stray (f : OutFrame) : (s.startSending f).line.stray = s.line.stray := rfl
@[simp] theorem State.startSending_line_coding (f : OutFrame) : (s.startSending f).line.coding = s.line.coding := rfl
@[simp] theorem State.startSending_line_check (f : OutFrame) : (s.startSending f).line.check = s.line.check := rfl
@[simp] theorem State.startSending_line_echo (f : OutFrame) : (s.startSending f).line.echo = s.line.echo := rfl
@[simp] theorem State.startSending_store (f : OutFrame) : (s.startSending f).store = s.store := rfl
@[simp] theorem State.startSending_inbound (f : OutFrame) : (s.startSending f).inbound = s.inbound := rfl
@[simp] theorem State.startSending_resetHeld (f : OutFrame) : (s.startSending f).resetHeld = s.resetHeld := rfl
@[simp] theorem State.startSending_readData (f : OutFrame) : (s.startSending f).readData = s.readData := rfl
@[simp] theorem State.startSending_lastClose (f : OutFrame) : (s.startSending f).lastClose = s.lastClose := rfl
@[simp] theorem State.startSending_pending (f : OutFrame) : (s.startSending f).pending = s.pending := rfl
@[simp] theorem State.startSending_entry (f : OutFrame) (j : EntryId) : (s.startSending f).entry j = s.entry j := rfl
@[simp] theorem State.startSending_slot (f : OutFrame) (j : SlotId) : (s.startSending f).slot j = s.slot j := rfl
@[simp] theorem State.startSending_record (f : OutFrame) (g : Handle) :
    (s.startSending f).record g = s.record g := rfl
@[simp] theorem State.startSending_param (f : OutFrame) (p : Fin 6) : (s.startSending f).param p = s.param p := rfl
@[simp] theorem State.startSending_freeCount (f : OutFrame) : (s.startSending f).freeCount = s.freeCount := rfl

/-! ### stopRequest (R87) -/

@[simp] theorem State.stopRequest_host : s.stopRequest.host = s.host := rfl
@[simp] theorem State.stopRequest_command : s.stopRequest.command = s.command := rfl
@[simp] theorem State.stopRequest_queue : s.stopRequest.queue = s.queue := rfl
@[simp] theorem State.stopRequest_table : s.stopRequest.table = s.table := rfl
@[simp] theorem State.stopRequest_arbiter : s.stopRequest.arbiter = s.arbiter := rfl
@[simp] theorem State.stopRequest_exchange : s.stopRequest.exchange = s.exchange := rfl
@[simp] theorem State.stopRequest_line_tx :
    s.stopRequest.line.tx = s.line.tx.map fun t => { t with stopRequested := true } := rfl
@[simp] theorem State.stopRequest_line_echoList : s.stopRequest.line.echoList = s.line.echoList := rfl
@[simp] theorem State.stopRequest_line_rx : s.stopRequest.line.rx = s.line.rx := rfl
@[simp] theorem State.stopRequest_line_lineHeld : s.stopRequest.line.lineHeld = s.line.lineHeld := rfl
@[simp] theorem State.stopRequest_line_guardTimer : s.stopRequest.line.guardTimer = s.line.guardTimer := rfl
@[simp] theorem State.stopRequest_line_replyTimer : s.stopRequest.line.replyTimer = s.line.replyTimer := rfl
@[simp] theorem State.stopRequest_line_gapTimer : s.stopRequest.line.gapTimer = s.line.gapTimer := rfl
@[simp] theorem State.stopRequest_line_rate : s.stopRequest.line.rate = s.line.rate := rfl
@[simp] theorem State.stopRequest_line_guardTime : s.stopRequest.line.guardTime = s.line.guardTime := rfl
@[simp] theorem State.stopRequest_line_gapTime : s.stopRequest.line.gapTime = s.line.gapTime := rfl
@[simp] theorem State.stopRequest_line_replyTimeout : s.stopRequest.line.replyTimeout = s.line.replyTimeout := rfl
@[simp] theorem State.stopRequest_line_stray : s.stopRequest.line.stray = s.line.stray := rfl
@[simp] theorem State.stopRequest_line_coding : s.stopRequest.line.coding = s.line.coding := rfl
@[simp] theorem State.stopRequest_line_check : s.stopRequest.line.check = s.line.check := rfl
@[simp] theorem State.stopRequest_line_echo : s.stopRequest.line.echo = s.line.echo := rfl
@[simp] theorem State.stopRequest_store : s.stopRequest.store = s.store := rfl
@[simp] theorem State.stopRequest_inbound : s.stopRequest.inbound = s.inbound := rfl
@[simp] theorem State.stopRequest_resetHeld : s.stopRequest.resetHeld = s.resetHeld := rfl
@[simp] theorem State.stopRequest_readData : s.stopRequest.readData = s.readData := rfl
@[simp] theorem State.stopRequest_lastClose : s.stopRequest.lastClose = s.lastClose := rfl
@[simp] theorem State.stopRequest_pending : s.stopRequest.pending = s.pending := rfl
@[simp] theorem State.stopRequest_entry (j : EntryId) : s.stopRequest.entry j = s.entry j := rfl
@[simp] theorem State.stopRequest_slot (j : SlotId) : s.stopRequest.slot j = s.slot j := rfl
@[simp] theorem State.stopRequest_record (g : Handle) : s.stopRequest.record g = s.record g := rfl
@[simp] theorem State.stopRequest_param (p : Fin 6) : s.stopRequest.param p = s.param p := rfl
@[simp] theorem State.stopRequest_freeCount : s.stopRequest.freeCount = s.freeCount := rfl

/-! ### countCoding (R101) -/

@[simp] theorem State.countCoding_host : s.countCoding.host = s.host := rfl
@[simp] theorem State.countCoding_command : s.countCoding.command = s.command := rfl
@[simp] theorem State.countCoding_queue : s.countCoding.queue = s.queue := rfl
@[simp] theorem State.countCoding_table : s.countCoding.table = s.table := rfl
@[simp] theorem State.countCoding_arbiter : s.countCoding.arbiter = s.arbiter := rfl
@[simp] theorem State.countCoding_exchange : s.countCoding.exchange = s.exchange := rfl
@[simp] theorem State.countCoding_line_tx : s.countCoding.line.tx = s.line.tx := rfl
@[simp] theorem State.countCoding_line_echoList : s.countCoding.line.echoList = s.line.echoList := rfl
@[simp] theorem State.countCoding_line_rx : s.countCoding.line.rx = s.line.rx := rfl
@[simp] theorem State.countCoding_line_lineHeld : s.countCoding.line.lineHeld = s.line.lineHeld := rfl
@[simp] theorem State.countCoding_line_guardTimer : s.countCoding.line.guardTimer = s.line.guardTimer := rfl
@[simp] theorem State.countCoding_line_replyTimer : s.countCoding.line.replyTimer = s.line.replyTimer := rfl
@[simp] theorem State.countCoding_line_gapTimer : s.countCoding.line.gapTimer = s.line.gapTimer := rfl
@[simp] theorem State.countCoding_line_rate : s.countCoding.line.rate = s.line.rate := rfl
@[simp] theorem State.countCoding_line_guardTime : s.countCoding.line.guardTime = s.line.guardTime := rfl
@[simp] theorem State.countCoding_line_gapTime : s.countCoding.line.gapTime = s.line.gapTime := rfl
@[simp] theorem State.countCoding_line_replyTimeout : s.countCoding.line.replyTimeout = s.line.replyTimeout := rfl
@[simp] theorem State.countCoding_line_stray : s.countCoding.line.stray = s.line.stray := rfl
@[simp] theorem State.countCoding_line_coding : s.countCoding.line.coding = satInc s.line.coding := rfl
@[simp] theorem State.countCoding_line_check : s.countCoding.line.check = s.line.check := rfl
@[simp] theorem State.countCoding_line_echo : s.countCoding.line.echo = s.line.echo := rfl
@[simp] theorem State.countCoding_store : s.countCoding.store = s.store := rfl
@[simp] theorem State.countCoding_inbound : s.countCoding.inbound = s.inbound := rfl
@[simp] theorem State.countCoding_resetHeld : s.countCoding.resetHeld = s.resetHeld := rfl
@[simp] theorem State.countCoding_readData : s.countCoding.readData = s.readData := rfl
@[simp] theorem State.countCoding_lastClose : s.countCoding.lastClose = s.lastClose := rfl
@[simp] theorem State.countCoding_pending : s.countCoding.pending = s.pending := rfl
@[simp] theorem State.countCoding_entry (j : EntryId) : s.countCoding.entry j = s.entry j := rfl
@[simp] theorem State.countCoding_slot (j : SlotId) : s.countCoding.slot j = s.slot j := rfl
@[simp] theorem State.countCoding_record (g : Handle) : s.countCoding.record g = s.record g := rfl
@[simp] theorem State.countCoding_param (p : Fin 6) : s.countCoding.param p = s.param p := rfl
@[simp] theorem State.countCoding_freeCount : s.countCoding.freeCount = s.freeCount := rfl

/-! ### countStray (R96) -/

@[simp] theorem State.countStray_host : s.countStray.host = s.host := rfl
@[simp] theorem State.countStray_command : s.countStray.command = s.command := rfl
@[simp] theorem State.countStray_queue : s.countStray.queue = s.queue := rfl
@[simp] theorem State.countStray_table : s.countStray.table = s.table := rfl
@[simp] theorem State.countStray_arbiter : s.countStray.arbiter = s.arbiter := rfl
@[simp] theorem State.countStray_exchange : s.countStray.exchange = s.exchange := rfl
@[simp] theorem State.countStray_line_tx : s.countStray.line.tx = s.line.tx := rfl
@[simp] theorem State.countStray_line_echoList : s.countStray.line.echoList = s.line.echoList := rfl
@[simp] theorem State.countStray_line_rx : s.countStray.line.rx = s.line.rx := rfl
@[simp] theorem State.countStray_line_lineHeld : s.countStray.line.lineHeld = s.line.lineHeld := rfl
@[simp] theorem State.countStray_line_guardTimer : s.countStray.line.guardTimer = s.line.guardTimer := rfl
@[simp] theorem State.countStray_line_replyTimer : s.countStray.line.replyTimer = s.line.replyTimer := rfl
@[simp] theorem State.countStray_line_gapTimer : s.countStray.line.gapTimer = s.line.gapTimer := rfl
@[simp] theorem State.countStray_line_rate : s.countStray.line.rate = s.line.rate := rfl
@[simp] theorem State.countStray_line_guardTime : s.countStray.line.guardTime = s.line.guardTime := rfl
@[simp] theorem State.countStray_line_gapTime : s.countStray.line.gapTime = s.line.gapTime := rfl
@[simp] theorem State.countStray_line_replyTimeout : s.countStray.line.replyTimeout = s.line.replyTimeout := rfl
@[simp] theorem State.countStray_line_stray : s.countStray.line.stray = satInc s.line.stray := rfl
@[simp] theorem State.countStray_line_coding : s.countStray.line.coding = s.line.coding := rfl
@[simp] theorem State.countStray_line_check : s.countStray.line.check = s.line.check := rfl
@[simp] theorem State.countStray_line_echo : s.countStray.line.echo = s.line.echo := rfl
@[simp] theorem State.countStray_store : s.countStray.store = s.store := rfl
@[simp] theorem State.countStray_inbound : s.countStray.inbound = s.inbound := rfl
@[simp] theorem State.countStray_resetHeld : s.countStray.resetHeld = s.resetHeld := rfl
@[simp] theorem State.countStray_readData : s.countStray.readData = s.readData := rfl
@[simp] theorem State.countStray_lastClose : s.countStray.lastClose = s.lastClose := rfl
@[simp] theorem State.countStray_pending : s.countStray.pending = s.pending := rfl
@[simp] theorem State.countStray_entry (j : EntryId) : s.countStray.entry j = s.entry j := rfl
@[simp] theorem State.countStray_slot (j : SlotId) : s.countStray.slot j = s.slot j := rfl
@[simp] theorem State.countStray_record (g : Handle) : s.countStray.record g = s.record g := rfl
@[simp] theorem State.countStray_param (p : Fin 6) : s.countStray.param p = s.param p := rfl
@[simp] theorem State.countStray_freeCount : s.countStray.freeCount = s.freeCount := rfl

/-! ### loadGuard (R97) -/

@[simp] theorem State.loadGuard_host : s.loadGuard.host = s.host := rfl
@[simp] theorem State.loadGuard_command : s.loadGuard.command = s.command := rfl
@[simp] theorem State.loadGuard_queue : s.loadGuard.queue = s.queue := rfl
@[simp] theorem State.loadGuard_table : s.loadGuard.table = s.table := rfl
@[simp] theorem State.loadGuard_arbiter : s.loadGuard.arbiter = s.arbiter := rfl
@[simp] theorem State.loadGuard_exchange : s.loadGuard.exchange = s.exchange := rfl
@[simp] theorem State.loadGuard_line_tx : s.loadGuard.line.tx = s.line.tx := rfl
@[simp] theorem State.loadGuard_line_echoList : s.loadGuard.line.echoList = s.line.echoList := rfl
@[simp] theorem State.loadGuard_line_rx : s.loadGuard.line.rx = s.line.rx := rfl
@[simp] theorem State.loadGuard_line_lineHeld : s.loadGuard.line.lineHeld = s.line.lineHeld := rfl
@[simp] theorem State.loadGuard_line_guardTimer : s.loadGuard.line.guardTimer = s.line.guardTime := rfl
@[simp] theorem State.loadGuard_line_replyTimer : s.loadGuard.line.replyTimer = s.line.replyTimer := rfl
@[simp] theorem State.loadGuard_line_gapTimer : s.loadGuard.line.gapTimer = s.line.gapTimer := rfl
@[simp] theorem State.loadGuard_line_rate : s.loadGuard.line.rate = s.line.rate := rfl
@[simp] theorem State.loadGuard_line_guardTime : s.loadGuard.line.guardTime = s.line.guardTime := rfl
@[simp] theorem State.loadGuard_line_gapTime : s.loadGuard.line.gapTime = s.line.gapTime := rfl
@[simp] theorem State.loadGuard_line_replyTimeout : s.loadGuard.line.replyTimeout = s.line.replyTimeout := rfl
@[simp] theorem State.loadGuard_line_stray : s.loadGuard.line.stray = s.line.stray := rfl
@[simp] theorem State.loadGuard_line_coding : s.loadGuard.line.coding = s.line.coding := rfl
@[simp] theorem State.loadGuard_line_check : s.loadGuard.line.check = s.line.check := rfl
@[simp] theorem State.loadGuard_line_echo : s.loadGuard.line.echo = s.line.echo := rfl
@[simp] theorem State.loadGuard_store : s.loadGuard.store = s.store := rfl
@[simp] theorem State.loadGuard_inbound : s.loadGuard.inbound = s.inbound := rfl
@[simp] theorem State.loadGuard_resetHeld : s.loadGuard.resetHeld = s.resetHeld := rfl
@[simp] theorem State.loadGuard_readData : s.loadGuard.readData = s.readData := rfl
@[simp] theorem State.loadGuard_lastClose : s.loadGuard.lastClose = s.lastClose := rfl
@[simp] theorem State.loadGuard_pending : s.loadGuard.pending = s.pending := rfl
@[simp] theorem State.loadGuard_entry (j : EntryId) : s.loadGuard.entry j = s.entry j := rfl
@[simp] theorem State.loadGuard_slot (j : SlotId) : s.loadGuard.slot j = s.slot j := rfl
@[simp] theorem State.loadGuard_record (g : Handle) : s.loadGuard.record g = s.record g := rfl
@[simp] theorem State.loadGuard_param (p : Fin 6) : s.loadGuard.param p = s.param p := rfl
@[simp] theorem State.loadGuard_freeCount : s.loadGuard.freeCount = s.freeCount := rfl

/-! ### loadGap (R99) -/

@[simp] theorem State.loadGap_host : s.loadGap.host = s.host := rfl
@[simp] theorem State.loadGap_command : s.loadGap.command = s.command := rfl
@[simp] theorem State.loadGap_queue : s.loadGap.queue = s.queue := rfl
@[simp] theorem State.loadGap_table : s.loadGap.table = s.table := rfl
@[simp] theorem State.loadGap_arbiter : s.loadGap.arbiter = s.arbiter := rfl
@[simp] theorem State.loadGap_exchange : s.loadGap.exchange = s.exchange := rfl
@[simp] theorem State.loadGap_line_tx : s.loadGap.line.tx = s.line.tx := rfl
@[simp] theorem State.loadGap_line_echoList : s.loadGap.line.echoList = s.line.echoList := rfl
@[simp] theorem State.loadGap_line_rx : s.loadGap.line.rx = s.line.rx := rfl
@[simp] theorem State.loadGap_line_lineHeld : s.loadGap.line.lineHeld = s.line.lineHeld := rfl
@[simp] theorem State.loadGap_line_guardTimer : s.loadGap.line.guardTimer = s.line.guardTimer := rfl
@[simp] theorem State.loadGap_line_replyTimer : s.loadGap.line.replyTimer = s.line.replyTimer := rfl
@[simp] theorem State.loadGap_line_gapTimer : s.loadGap.line.gapTimer = s.line.gapTime := rfl
@[simp] theorem State.loadGap_line_rate : s.loadGap.line.rate = s.line.rate := rfl
@[simp] theorem State.loadGap_line_guardTime : s.loadGap.line.guardTime = s.line.guardTime := rfl
@[simp] theorem State.loadGap_line_gapTime : s.loadGap.line.gapTime = s.line.gapTime := rfl
@[simp] theorem State.loadGap_line_replyTimeout : s.loadGap.line.replyTimeout = s.line.replyTimeout := rfl
@[simp] theorem State.loadGap_line_stray : s.loadGap.line.stray = s.line.stray := rfl
@[simp] theorem State.loadGap_line_coding : s.loadGap.line.coding = s.line.coding := rfl
@[simp] theorem State.loadGap_line_check : s.loadGap.line.check = s.line.check := rfl
@[simp] theorem State.loadGap_line_echo : s.loadGap.line.echo = s.line.echo := rfl
@[simp] theorem State.loadGap_store : s.loadGap.store = s.store := rfl
@[simp] theorem State.loadGap_inbound : s.loadGap.inbound = s.inbound := rfl
@[simp] theorem State.loadGap_resetHeld : s.loadGap.resetHeld = s.resetHeld := rfl
@[simp] theorem State.loadGap_readData : s.loadGap.readData = s.readData := rfl
@[simp] theorem State.loadGap_lastClose : s.loadGap.lastClose = s.lastClose := rfl
@[simp] theorem State.loadGap_pending : s.loadGap.pending = s.pending := rfl
@[simp] theorem State.loadGap_entry (j : EntryId) : s.loadGap.entry j = s.entry j := rfl
@[simp] theorem State.loadGap_slot (j : SlotId) : s.loadGap.slot j = s.slot j := rfl
@[simp] theorem State.loadGap_record (g : Handle) : s.loadGap.record g = s.record g := rfl
@[simp] theorem State.loadGap_param (p : Fin 6) : s.loadGap.param p = s.param p := rfl
@[simp] theorem State.loadGap_freeCount : s.loadGap.freeCount = s.freeCount := rfl

/-! ### stopGap (R94) -/

@[simp] theorem State.stopGap_host : s.stopGap.host = s.host := rfl
@[simp] theorem State.stopGap_command : s.stopGap.command = s.command := rfl
@[simp] theorem State.stopGap_queue : s.stopGap.queue = s.queue := rfl
@[simp] theorem State.stopGap_table : s.stopGap.table = s.table := rfl
@[simp] theorem State.stopGap_arbiter : s.stopGap.arbiter = s.arbiter := rfl
@[simp] theorem State.stopGap_exchange : s.stopGap.exchange = s.exchange := rfl
@[simp] theorem State.stopGap_line_tx : s.stopGap.line.tx = s.line.tx := rfl
@[simp] theorem State.stopGap_line_echoList : s.stopGap.line.echoList = s.line.echoList := rfl
@[simp] theorem State.stopGap_line_rx : s.stopGap.line.rx = s.line.rx := rfl
@[simp] theorem State.stopGap_line_lineHeld : s.stopGap.line.lineHeld = s.line.lineHeld := rfl
@[simp] theorem State.stopGap_line_guardTimer : s.stopGap.line.guardTimer = s.line.guardTimer := rfl
@[simp] theorem State.stopGap_line_replyTimer : s.stopGap.line.replyTimer = s.line.replyTimer := rfl
@[simp] theorem State.stopGap_line_gapTimer : s.stopGap.line.gapTimer = 0#4 := rfl
@[simp] theorem State.stopGap_line_rate : s.stopGap.line.rate = s.line.rate := rfl
@[simp] theorem State.stopGap_line_guardTime : s.stopGap.line.guardTime = s.line.guardTime := rfl
@[simp] theorem State.stopGap_line_gapTime : s.stopGap.line.gapTime = s.line.gapTime := rfl
@[simp] theorem State.stopGap_line_replyTimeout : s.stopGap.line.replyTimeout = s.line.replyTimeout := rfl
@[simp] theorem State.stopGap_line_stray : s.stopGap.line.stray = s.line.stray := rfl
@[simp] theorem State.stopGap_line_coding : s.stopGap.line.coding = s.line.coding := rfl
@[simp] theorem State.stopGap_line_check : s.stopGap.line.check = s.line.check := rfl
@[simp] theorem State.stopGap_line_echo : s.stopGap.line.echo = s.line.echo := rfl
@[simp] theorem State.stopGap_store : s.stopGap.store = s.store := rfl
@[simp] theorem State.stopGap_inbound : s.stopGap.inbound = s.inbound := rfl
@[simp] theorem State.stopGap_resetHeld : s.stopGap.resetHeld = s.resetHeld := rfl
@[simp] theorem State.stopGap_readData : s.stopGap.readData = s.readData := rfl
@[simp] theorem State.stopGap_lastClose : s.stopGap.lastClose = s.lastClose := rfl
@[simp] theorem State.stopGap_pending : s.stopGap.pending = s.pending := rfl
@[simp] theorem State.stopGap_entry (j : EntryId) : s.stopGap.entry j = s.entry j := rfl
@[simp] theorem State.stopGap_slot (j : SlotId) : s.stopGap.slot j = s.slot j := rfl
@[simp] theorem State.stopGap_record (g : Handle) : s.stopGap.record g = s.record g := rfl
@[simp] theorem State.stopGap_param (p : Fin 6) : s.stopGap.param p = s.param p := rfl
@[simp] theorem State.stopGap_freeCount : s.stopGap.freeCount = s.freeCount := rfl

/-! ### setArrival (R136) -/

@[simp] theorem State.setArrival_host (a : Option Arrival) : (s.setArrival a).host = s.host := rfl
@[simp] theorem State.setArrival_command (a : Option Arrival) : (s.setArrival a).command = s.command := rfl
@[simp] theorem State.setArrival_queue (a : Option Arrival) : (s.setArrival a).queue = s.queue := rfl
@[simp] theorem State.setArrival_table (a : Option Arrival) : (s.setArrival a).table = s.table := rfl
@[simp] theorem State.setArrival_arbiter (a : Option Arrival) : (s.setArrival a).arbiter = s.arbiter := rfl
@[simp] theorem State.setArrival_exchange (a : Option Arrival) : (s.setArrival a).exchange = s.exchange := rfl
@[simp] theorem State.setArrival_line (a : Option Arrival) : (s.setArrival a).line = s.line := rfl
@[simp] theorem State.setArrival_store (a : Option Arrival) : (s.setArrival a).store = s.store := rfl
@[simp] theorem State.setArrival_inbound_arrival (a : Option Arrival) : (s.setArrival a).inbound.arrival = a := rfl
@[simp] theorem State.setArrival_inbound_list (a : Option Arrival) :
    (s.setArrival a).inbound.list = s.inbound.list := rfl
@[simp] theorem State.setArrival_resetHeld (a : Option Arrival) : (s.setArrival a).resetHeld = s.resetHeld := rfl
@[simp] theorem State.setArrival_readData (a : Option Arrival) : (s.setArrival a).readData = s.readData := rfl
@[simp] theorem State.setArrival_lastClose (a : Option Arrival) : (s.setArrival a).lastClose = s.lastClose := rfl
@[simp] theorem State.setArrival_pending (a : Option Arrival) : (s.setArrival a).pending = s.pending := rfl
@[simp] theorem State.setArrival_entry (a : Option Arrival) (j : EntryId) :
    (s.setArrival a).entry j = s.entry j := rfl
@[simp] theorem State.setArrival_slot (a : Option Arrival) (j : SlotId) : (s.setArrival a).slot j = s.slot j := rfl
@[simp] theorem State.setArrival_record (a : Option Arrival) (g : Handle) :
    (s.setArrival a).record g = s.record g := rfl
@[simp] theorem State.setArrival_param (a : Option Arrival) (p : Fin 6) : (s.setArrival a).param p = s.param p := rfl
@[simp] theorem State.setArrival_freeCount (a : Option Arrival) : (s.setArrival a).freeCount = s.freeCount := rfl

/-! ### advanceWindow (R176) -/

@[simp] theorem State.advanceWindow_host_run : s.advanceWindow.host.run = s.host.run := rfl
@[simp] theorem State.advanceWindow_host_causeEnable : s.advanceWindow.host.causeEnable = s.host.causeEnable := rfl
@[simp] theorem State.advanceWindow_host_stationLost : s.advanceWindow.host.stationLost = s.host.stationLost := rfl
@[simp] theorem State.advanceWindow_host_restraintCause :
    s.advanceWindow.host.restraintCause = s.host.restraintCause := rfl
@[simp] theorem State.advanceWindow_host_hostFault : s.advanceWindow.host.hostFault = s.host.hostFault := rfl
@[simp] theorem State.advanceWindow_host_faultKind : s.advanceWindow.host.faultKind = s.host.faultKind := rfl
@[simp] theorem State.advanceWindow_host_winSelect : s.advanceWindow.host.winSelect = s.host.winSelect := rfl
@[simp] theorem State.advanceWindow_host_winOffset : s.advanceWindow.host.winOffset = s.host.winOffset + 2#16 := rfl
@[simp] theorem State.advanceWindow_command : s.advanceWindow.command = s.command := rfl
@[simp] theorem State.advanceWindow_queue : s.advanceWindow.queue = s.queue := rfl
@[simp] theorem State.advanceWindow_table : s.advanceWindow.table = s.table := rfl
@[simp] theorem State.advanceWindow_arbiter : s.advanceWindow.arbiter = s.arbiter := rfl
@[simp] theorem State.advanceWindow_exchange : s.advanceWindow.exchange = s.exchange := rfl
@[simp] theorem State.advanceWindow_line : s.advanceWindow.line = s.line := rfl
@[simp] theorem State.advanceWindow_store : s.advanceWindow.store = s.store := rfl
@[simp] theorem State.advanceWindow_inbound : s.advanceWindow.inbound = s.inbound := rfl
@[simp] theorem State.advanceWindow_resetHeld : s.advanceWindow.resetHeld = s.resetHeld := rfl
@[simp] theorem State.advanceWindow_readData : s.advanceWindow.readData = s.readData := rfl
@[simp] theorem State.advanceWindow_lastClose : s.advanceWindow.lastClose = s.lastClose := rfl
@[simp] theorem State.advanceWindow_pending : s.advanceWindow.pending = s.pending := rfl
@[simp] theorem State.advanceWindow_entry (j : EntryId) : s.advanceWindow.entry j = s.entry j := rfl
@[simp] theorem State.advanceWindow_slot (j : SlotId) : s.advanceWindow.slot j = s.slot j := rfl
@[simp] theorem State.advanceWindow_record (g : Handle) : s.advanceWindow.record g = s.record g := rfl
@[simp] theorem State.advanceWindow_param (p : Fin 6) : s.advanceWindow.param p = s.param p := rfl
@[simp] theorem State.advanceWindow_freeCount : s.advanceWindow.freeCount = s.freeCount := rfl

/-! ### Reading what was written -/

@[simp] theorem State.entry_setEntry (i j : EntryId) (e : Entry) :
    (s.setEntry i e).entry j = if i = j then e else s.entry j := by
  simp only [State.entry, State.setEntry, Fin.getElem_fin, Vector.getElem_set, Fin.ext_iff]

@[simp] theorem State.slot_setSlot (i j : SlotId) (x : Option Slot) :
    (s.setSlot i x).slot j = if i = j then x else s.slot j := by
  simp only [State.slot, State.setSlot, Fin.getElem_fin, Vector.getElem_set, Fin.ext_iff]

@[simp] theorem State.record_setRecord (h g : Handle) (d : Descriptor) :
    (s.setRecord h d).record g = if h = g then d else s.record g := by
  simp only [State.record, State.setRecord, Fin.getElem_fin, Vector.getElem_set, Fin.ext_iff]

@[simp] theorem State.param_setParams (v : Vector Word 6) (k : Fin 6) : (s.setParams v).param k = v[k] := rfl

/-- Every entry after reset is the vacant one (R20). -/
@[simp] theorem State.reset_entry (i : EntryId) : State.reset.entry i = Entry.vacant := by
  simp [State.entry, State.reset, StationTable.reset]

/-- Every slot is free after reset (R171). -/
@[simp] theorem State.reset_slot (i : SlotId) : State.reset.slot i = none := by
  simp [State.slot, State.reset, CommandUnit.reset]

/-- Every descriptor is FREE after reset (R134). -/
@[simp] theorem State.reset_record (h : Handle) : State.reset.record h = Descriptor.free := by
  simp [State.record, State.reset, RecordStore.reset]

end Sys2Proof.Machine
end

