-- ==== Sys2Proof/Laws/Store.lean ====
section
/-! SUPPORT. What each operation of the Record Store does, said once: the free block list and the restraint state
(R118 to R132), and the descriptors' changes of state (R121 to R129). -/

namespace Sys2Proof.Machine

variable (s : State)

/-! ### Restraint -/

/-- Entering a restraint state: the state is set, and a change of it latches the cause (R131). -/
theorem State.setRestraint_eq (r : Restraint) :
    s.setRestraint r = { s with
      store := { s.store with restraint := r }
      host := { s.host with
        restraintCause := s.host.restraintCause || decide (r ≠ s.store.restraint) } } := by
  unfold State.setRestraint
  split
  · rename_i h; subst h; simp
  · rename_i h
    have : r ≠ s.store.restraint := Ne.symm h
    simp [this]

/-- The state the store is in after a decrease of the free count to `count` (R130). -/
def Restraint.afterDecrease (r : Restraint) (low count : Nat) : Restraint :=
  if count ≤ low then .restrained else r

/-- The state the store is in after an increase of the free count to `count` (R130). -/
def Restraint.afterIncrease (r : Restraint) (high count : Nat) : Restraint :=
  if high ≤ count then .open else r

/-- The state the store is in once new marks are evaluated (R132). -/
def Restraint.afterMarks (r : Restraint) (low high count : Nat) : Restraint :=
  if count ≤ low then .restrained else if high ≤ count then .open else r

theorem State.evalDecrease_eq :
    s.evalDecrease = s.setRestraint (s.store.restraint.afterDecrease s.store.low s.freeCount) := by
  unfold State.evalDecrease Restraint.afterDecrease
  split <;> simp [State.setRestraint]

theorem State.evalIncrease_eq :
    s.evalIncrease = s.setRestraint (s.store.restraint.afterIncrease s.store.high s.freeCount) := by
  unfold State.evalIncrease Restraint.afterIncrease
  split <;> simp [State.setRestraint]

theorem State.evalMarks_eq :
    s.evalMarks = s.setRestraint (s.store.restraint.afterMarks s.store.low s.store.high s.freeCount) := by
  unfold State.evalMarks Restraint.afterMarks
  split
  · rfl
  · split <;> simp [State.setRestraint]

/-- Taking blocks: the free list loses its first `n`, and the store is evaluated against LOW (R118, R130, R131). -/
theorem State.takeBlocks_eq (n : Nat) :
    s.takeBlocks n =
      let r := s.store.restraint.afterDecrease s.store.low (s.store.freeList.length - n)
      { s with
        store := { s.store with freeList := s.store.freeList.drop n, restraint := r }
        host := { s.host with
          restraintCause := s.host.restraintCause || decide (r ≠ s.store.restraint) } } := by
  simp [State.takeBlocks, State.evalDecrease_eq, State.setRestraint_eq, State.freeCount]

/-- Returning a chain: it joins the tail of the free list, and the store is evaluated against HIGH, unless the chain
has no block (R118, R130, R131). -/
theorem State.returnBlocks_eq (chain : List Block) :
    s.returnBlocks chain =
      let r := if chain = [] then s.store.restraint
        else s.store.restraint.afterIncrease s.store.high (s.store.freeList.length + chain.length)
      { s with
        store := { s.store with freeList := s.store.freeList ++ chain, restraint := r }
        host := { s.host with
          restraintCause := s.host.restraintCause || decide (r ≠ s.store.restraint) } } := by
  unfold State.returnBlocks
  split
  · rename_i h; subst h; simp
  · rename_i h
    simp [State.evalIncrease_eq, State.setRestraint_eq, State.freeCount]

/-! ### What the store's operations leave alone -/

/-- A state that differs from another at most in its Record Store and in the RESTRAINT cause. -/
structure SameButStore (s t : State) : Prop where
  command : t.command = s.command
  queue : t.queue = s.queue
  table : t.table = s.table
  arbiter : t.arbiter = s.arbiter
  exchange : t.exchange = s.exchange
  line : t.line = s.line
  inbound : t.inbound = s.inbound
  resetHeld : t.resetHeld = s.resetHeld
  readData : t.readData = s.readData
  lastClose : t.lastClose = s.lastClose
  pending : t.pending = s.pending
  host : t.host = { s.host with restraintCause := t.host.restraintCause }

theorem SameButStore.refl : SameButStore s s := ⟨rfl, rfl, rfl, rfl, rfl, rfl, rfl, rfl, rfl, rfl, rfl, rfl⟩

variable {s} in
theorem SameButStore.trans {t u : State} (h : SameButStore s t) (k : SameButStore t u) : SameButStore s u where
  command := k.command.trans h.command
  queue := k.queue.trans h.queue
  table := k.table.trans h.table
  arbiter := k.arbiter.trans h.arbiter
  exchange := k.exchange.trans h.exchange
  line := k.line.trans h.line
  inbound := k.inbound.trans h.inbound
  resetHeld := k.resetHeld.trans h.resetHeld
  readData := k.readData.trans h.readData
  lastClose := k.lastClose.trans h.lastClose
  pending := k.pending.trans h.pending
  host := by rw [k.host, h.host]

theorem State.setRecord_sameButStore (h : Handle) (d : Descriptor) : SameButStore s (s.setRecord h d) :=
  ⟨rfl, rfl, rfl, rfl, rfl, rfl, rfl, rfl, rfl, rfl, rfl, rfl⟩

theorem State.takeBlocks_sameButStore (n : Nat) : SameButStore s (s.takeBlocks n) := by
  rw [State.takeBlocks_eq]; exact ⟨rfl, rfl, rfl, rfl, rfl, rfl, rfl, rfl, rfl, rfl, rfl, rfl⟩

theorem State.returnBlocks_sameButStore (chain : List Block) : SameButStore s (s.returnBlocks chain) := by
  rw [State.returnBlocks_eq]; exact ⟨rfl, rfl, rfl, rfl, rfl, rfl, rfl, rfl, rfl, rfl, rfl, rfl⟩

theorem State.freeRecord_sameButStore (h : Handle) : SameButStore s (s.freeRecord h) :=
  (s.setRecord_sameButStore h _).trans (State.returnBlocks_sameButStore _ _)

theorem State.writeRecordByte_sameButStore (h : Handle) (k : Nat) (v : Byte) :
    SameButStore s (s.writeRecordByte h k v) := by
  unfold State.writeRecordByte
  split <;> exact ⟨rfl, rfl, rfl, rfl, rfl, rfl, rfl, rfl, rfl, rfl, rfl, rfl⟩

theorem State.requeueRecord_sameButStore (i : Option SlotId) : SameButStore s (s.requeueRecord i) := by
  unfold State.requeueRecord
  split
  · split
    · exact s.setRecord_sameButStore _ _
    · exact SameButStore.refl s
  · exact SameButStore.refl s

theorem State.settleRecord_sameButStore (h : Handle) (o : Outcome) : SameButStore s (s.settleRecord h o) := by
  unfold State.settleRecord
  split
  · exact s.freeRecord_sameButStore h
  · exact s.setRecord_sameButStore _ _

/-! ### Descriptors -/

@[simp] theorem State.record_takeBlocks (n : Nat) (g : Handle) : (s.takeBlocks n).record g = s.record g := by
  rw [State.takeBlocks_eq]; rfl

@[simp] theorem State.record_returnBlocks (chain : List Block) (g : Handle) :
    (s.returnBlocks chain).record g = s.record g := by
  rw [State.returnBlocks_eq]; rfl

@[simp] theorem State.record_writeRecordByte (h g : Handle) (k : Nat) (v : Byte) :
    (s.writeRecordByte h k v).record g = s.record g := by
  unfold State.writeRecordByte; split <;> rfl

@[simp] theorem State.record_moveRecord (h g : Handle) (r : RecordState) :
    (s.moveRecord h r).record g = if h = g then { s.record h with state := r } else s.record g := by
  simp [State.moveRecord]

@[simp] theorem State.record_freeRecord (h g : Handle) :
    (s.freeRecord h).record g = if h = g then Descriptor.free else s.record g := by
  simp [State.freeRecord]

@[simp] theorem State.record_readyRecord (h g : Handle) :
    (s.readyRecord h).record g = if h = g then { s.record h with state := .ready, keep := false }
      else s.record g := by
  simp [State.readyRecord]

/-- The blocks after a record is freed: its chain has joined the tail of the free list (R121). -/
@[simp] theorem State.freeList_freeRecord (h : Handle) :
    (s.freeRecord h).store.freeList = s.store.freeList ++ (s.record h).chain := by
  simp [State.freeRecord, State.returnBlocks_eq]

@[simp] theorem State.bytes_freeRecord (h : Handle) : (s.freeRecord h).store.bytes = s.store.bytes := by
  simp [State.freeRecord, State.returnBlocks_eq]

/-- What an accepted ALLOC makes of its handle, and of no other (R123). -/
theorem State.record_allocate (h g : Handle) (n : Nat) :
    (s.allocate h n).record g = if h = g then
      { state := .filling, length := n, chain := s.store.freeList.take (blocksFor n), origin := 0#8, keep := false }
      else s.record g := by
  simp only [State.allocate, State.record_takeBlocks]
  exact s.record_setRecord h g _

/-- What judging a record by its state can answer (R124, R125, R127). -/
theorem State.judgeRecord_cases (named : Byte) (usable : RecordState → Bool) :
    (64 ≤ named.toNat ∧ s.judgeRecord named usable = .error .badRecord) ∨
    ∃ h : Handle, h.val = named.toNat ∧
      ((((s.record h).state = .free ∨ (s.record h).state = .arriving) ∧
          s.judgeRecord named usable = .error .badRecord) ∨
        ((s.record h).state ≠ .free ∧ (s.record h).state ≠ .arriving ∧ usable (s.record h).state = false ∧
          s.judgeRecord named usable = .error .recordBusy) ∨
        ((s.record h).state ≠ .free ∧ (s.record h).state ≠ .arriving ∧ usable (s.record h).state = true ∧
          s.judgeRecord named usable = .ok h)) := by
  by_cases hn : named.toNat < 64
  · right
    refine ⟨⟨named.toNat, hn⟩, rfl, ?_⟩
    simp only [State.judgeRecord, handleOfByte, dif_pos hn]
    by_cases h1 : (s.record ⟨named.toNat, hn⟩).state = .free ∨ (s.record ⟨named.toNat, hn⟩).state = .arriving
    · exact .inl ⟨h1, by rw [if_pos h1]⟩
    · obtain ⟨ha, hb⟩ := not_or.mp h1
      by_cases h2 : usable (s.record ⟨named.toNat, hn⟩).state = true
      · exact .inr (.inr ⟨ha, hb, h2, by rw [if_neg h1, if_pos h2]⟩)
      · exact .inr (.inl ⟨ha, hb, by simpa using h2, by rw [if_neg h1, if_neg h2]⟩)
  · left
    exact ⟨by omega, by simp [State.judgeRecord, handleOfByte, hn]⟩

end Sys2Proof.Machine
end

