-- ==== Sys2Proof/Laws/Completions.lean ====
section
/-! SUPPORT. What posting and completing do, said once (R129, R163): for one command, and for every command of a
list one after another (R5, R7). -/

namespace Sys2Proof.Machine

variable (s : State)

/-! ### Leaving a list -/

/-- A state that differs from another at most in its slots, its lists, its queue, its Record Store and the RESTRAINT
cause: what completing commands can reach. -/
structure SameButCompletions (s t : State) : Prop where
  params : t.command.params = s.command.params
  result : t.command.result = s.command.result
  lostSummary : t.table.lostSummary = s.table.lostSummary
  probeInterval : t.table.probeInterval = s.table.probeInterval
  probeLimit : t.table.probeLimit = s.table.probeLimit
  holdBackoff : t.table.holdBackoff = s.table.holdBackoff
  entry : ∀ e, t.entry e = { s.entry e with pendingList := (t.entry e).pendingList }
  threshold : t.queue.threshold = s.queue.threshold
  lingerTime : t.queue.lingerTime = s.queue.lingerTime
  arbiter : t.arbiter = s.arbiter
  exchange : t.exchange = s.exchange
  line : t.line = s.line
  inbound : t.inbound = s.inbound
  resetHeld : t.resetHeld = s.resetHeld
  readData : t.readData = s.readData
  lastClose : t.lastClose = s.lastClose
  pending : t.pending = s.pending
  host : t.host = { s.host with restraintCause := t.host.restraintCause }

theorem SameButCompletions.refl : SameButCompletions s s :=
  ⟨rfl, rfl, rfl, rfl, rfl, rfl, fun _ => rfl, rfl, rfl, rfl, rfl, rfl, rfl, rfl, rfl, rfl, rfl, rfl⟩

variable {s} in
theorem SameButCompletions.trans {t u : State} (h : SameButCompletions s t) (k : SameButCompletions t u) :
    SameButCompletions s u where
  params := k.params.trans h.params
  result := k.result.trans h.result
  lostSummary := k.lostSummary.trans h.lostSummary
  probeInterval := k.probeInterval.trans h.probeInterval
  probeLimit := k.probeLimit.trans h.probeLimit
  holdBackoff := k.holdBackoff.trans h.holdBackoff
  entry e := by rw [k.entry e, h.entry e]
  threshold := k.threshold.trans h.threshold
  lingerTime := k.lingerTime.trans h.lingerTime
  arbiter := k.arbiter.trans h.arbiter
  exchange := k.exchange.trans h.exchange
  line := k.line.trans h.line
  inbound := k.inbound.trans h.inbound
  resetHeld := k.resetHeld.trans h.resetHeld
  readData := k.readData.trans h.readData
  lastClose := k.lastClose.trans h.lastClose
  pending := k.pending.trans h.pending
  host := by rw [k.host, h.host]

variable {s} in
/-- What the Record Store's operations reach, completing commands can reach. -/
theorem SameButStore.completions {t : State} (h : SameButStore s t) : SameButCompletions s t where
  params := by rw [h.command]
  result := by rw [h.command]
  lostSummary := by rw [h.table]
  probeInterval := by rw [h.table]
  probeLimit := by rw [h.table]
  holdBackoff := by rw [h.table]
  entry e := by simp [State.entry, h.table]
  threshold := by rw [h.queue]
  lingerTime := by rw [h.queue]
  arbiter := h.arbiter
  exchange := h.exchange
  line := h.line
  inbound := h.inbound
  resetHeld := h.resetHeld
  readData := h.readData
  lastClose := h.lastClose
  pending := h.pending
  host := h.host

/-- The coalescing state is all that an evaluation changes (R165). -/
@[simp] theorem CompletionQueue.evalPosting_entries (q : CompletionQueue) : q.evalPosting.entries = q.entries := by
  unfold CompletionQueue.evalPosting; split <;> rfl

@[simp] theorem CompletionQueue.evalPosting_threshold (q : CompletionQueue) :
    q.evalPosting.threshold = q.threshold := by
  unfold CompletionQueue.evalPosting; split <;> rfl

@[simp] theorem CompletionQueue.evalPosting_lingerTime (q : CompletionQueue) :
    q.evalPosting.lingerTime = q.lingerTime := by
  unfold CompletionQueue.evalPosting; split <;> rfl

/-- The flag once an entry has joined: set at the threshold, and otherwise as it was (R165). -/
theorem CompletionQueue.evalPosting_ready (q : CompletionQueue) :
    q.evalPosting.ready = (q.ready || q.atThreshold) := by
  unfold CompletionQueue.evalPosting; split <;> simp_all

/-- The linger timer once an entry has joined: stopped at the threshold, and otherwise loaded (R166). -/
theorem CompletionQueue.evalPosting_lingerTimer (q : CompletionQueue) :
    q.evalPosting.lingerTimer = if q.atThreshold then 0#8 else q.lingerTime := by
  unfold CompletionQueue.evalPosting; split <;> rfl

/-! ### Posting -/

@[simp] theorem State.leaveList_slot (p : Place) (i j : SlotId) : (s.leaveList p i).slot j = s.slot j := by
  unfold State.leaveList; split <;> rfl

@[simp] theorem State.leaveList_queue (p : Place) (i : SlotId) : (s.leaveList p i).queue = s.queue := by
  unfold State.leaveList; split <;> rfl

@[simp] theorem State.leaveList_store (p : Place) (i : SlotId) : (s.leaveList p i).store = s.store := by
  unfold State.leaveList; split <;> rfl

/-- The entries once a slot has left its list. -/
theorem State.leaveList_entry (p : Place) (i : SlotId) (e : EntryId) :
    (s.leaveList p i).entry e = if p = .station e
      then { s.entry e with pendingList := (s.entry e).pendingList.erase i } else s.entry e := by
  cases p with
  | station d =>
    by_cases h : d = e
    · subst h; simp [State.leaveList]
    · simp [State.leaveList, h]
  | broadcast => simp [State.leaveList]; rfl

theorem State.leaveList_broadcastList (p : Place) (i : SlotId) :
    (s.leaveList p i).command.broadcastList = if p = .broadcast
      then s.command.broadcastList.erase i else s.command.broadcastList := by
  cases p <;> simp [State.leaveList]

/-- The queue after a post: the completion at its tail, and the coalescing state evaluated (R163, R165). -/
@[simp] theorem State.post_queue (i : SlotId) (p : Place) (c : Completion) :
    (s.post i p c).queue = ({ s.queue with entries := s.queue.entries ++ [c] } : CompletionQueue).evalPosting := by
  simp [State.post]

@[simp] theorem State.post_slot (i : SlotId) (p : Place) (c : Completion) (j : SlotId) :
    (s.post i p c).slot j = if i = j then none else s.slot j := by
  show (State.setSlot (State.leaveList _ p i) i none).slot j = _
  rw [State.slot_setSlot, State.leaveList_slot]; rfl

@[simp] theorem State.post_store (i : SlotId) (p : Place) (c : Completion) : (s.post i p c).store = s.store := by
  simp [State.post]

@[simp] theorem State.post_record (i : SlotId) (p : Place) (c : Completion) (h : Handle) :
    (s.post i p c).record h = s.record h := by
  simp [State.record]

theorem State.post_entry (i : SlotId) (p : Place) (c : Completion) (e : EntryId) :
    (s.post i p c).entry e = if p = .station e
      then { s.entry e with pendingList := (s.entry e).pendingList.erase i } else s.entry e :=
  State.leaveList_entry _ p i e

theorem State.post_broadcastList (i : SlotId) (p : Place) (c : Completion) :
    (s.post i p c).command.broadcastList = if p = .broadcast
      then s.command.broadcastList.erase i else s.command.broadcastList :=
  State.leaveList_broadcastList _ p i

theorem State.post_same (i : SlotId) (p : Place) (c : Completion) : SameButCompletions s (s.post i p c) := by
  cases p with
  | station d =>
    refine ⟨rfl, rfl, rfl, rfl, rfl, rfl, fun e => ?_, ?_, ?_, rfl, rfl, rfl, rfl, rfl, rfl, rfl, rfl, rfl⟩
    · rw [State.post_entry]; split <;> rfl
    · simp
    · simp
  | broadcast =>
    refine ⟨rfl, rfl, rfl, rfl, rfl, rfl, fun e => ?_, ?_, ?_, rfl, rfl, rfl, rfl, rfl, rfl, rfl, rfl, rfl⟩
    · rw [State.post_entry]; split <;> rfl
    · simp
    · simp

/-! ### Completing one command -/

/-- A free slot has no command to complete. -/
theorem State.complete_none (i : SlotId) (o : Outcome) (d : Byte) (n : Nat) (g : Option Handle)
    (h : s.slot i = none) : s.complete i o d n g = s := by
  simp [State.complete, h]

/-- The record of a command once its completion has acted on it (R129). -/
def State.settled (s : State) (h : Option Handle) (o : Outcome) : State :=
  match h with
  | some h => s.settleRecord h o
  | none => s

/-- The handle a completion carries: that of the command's record unless the record is freed, and for a command
that names none the handle given (R129, R161). -/
def State.completedHandle (s : State) (h : Option Handle) (o : Outcome) (given : Option Handle) : Option Handle :=
  match h with
  | some h => s.keptHandle h o
  | none => given

/-- Completing a command: its record is settled, then its completion is posted (R129, R163). -/
theorem State.complete_some (i : SlotId) (o : Outcome) (d : Byte) (n : Nat) (g : Option Handle) (x : Slot)
    (h : s.slot i = some x) : s.complete i o d n g =
      (s.settled x.handle o).post i x.place (x.completion o d n (s.completedHandle x.handle o g)) := by
  cases hx : x.handle <;> simp [State.complete, h, hx, State.settled, State.completedHandle]

theorem State.settled_sameButStore (h : Option Handle) (o : Outcome) : SameButStore s (s.settled h o) := by
  cases h with
  | none => exact SameButStore.refl s
  | some h => exact s.settleRecord_sameButStore h o

theorem State.complete_same (i : SlotId) (o : Outcome) (d : Byte) (n : Nat) (g : Option Handle) :
    SameButCompletions s (s.complete i o d n g) := by
  cases h : s.slot i with
  | none => rw [s.complete_none i o d n g h]; exact SameButCompletions.refl s
  | some x =>
    rw [s.complete_some i o d n g x h]
    exact (s.settled_sameButStore x.handle o).completions.trans (State.post_same _ _ _ _)

/-- The records once a command whose outcome delivers nothing has completed: its own is READY with KEEP clear
(R129). -/
theorem State.settled_record_of_not_delivers (h : Option Handle) (o : Outcome) (ho : o.delivers = false)
    (g : Handle) : (s.settled h o).record g =
      if h = some g then { s.record g with state := .ready, keep := false } else s.record g := by
  cases h with
  | none => simp [State.settled]
  | some h =>
    by_cases hg : h = g
    · subst hg; simp [State.settled, State.settleRecord, ho]
    · simp [State.settled, State.settleRecord, ho, hg]

/-- The store but for its descriptors is as it was once a command whose outcome delivers nothing has completed. -/
theorem State.settled_store_of_not_delivers (h : Option Handle) (o : Outcome) (ho : o.delivers = false) :
    (s.settled h o).store = { s.store with descriptors := (s.settled h o).store.descriptors } ∧
      (s.settled h o).host = s.host := by
  cases h with
  | none => exact ⟨rfl, rfl⟩
  | some h => simp [State.settled, State.settleRecord, ho, State.readyRecord, State.setRecord]

theorem State.completedHandle_of_not_delivers (h : Option Handle) (o : Outcome) (ho : o.delivers = false) :
    s.completedHandle h o none = h := by
  cases h <;> simp [State.completedHandle, State.keptHandle, ho]

/-! ### Completing a list -/

/-- Completing commands one after another reaches nothing but slots, lists, queue and store. -/
theorem State.foldl_complete_same (l : List SlotId) (f : SlotId → Outcome × Byte × Nat) (s : State) :
    SameButCompletions s (l.foldl (fun t i => t.complete i (f i).1 (f i).2.1 (f i).2.2 none) s) := by
  induction l generalizing s with
  | nil => exact SameButCompletions.refl s
  | cons i l ih =>
    rw [List.foldl_cons]
    exact (s.complete_same i _ _ _ _).trans (ih _)

theorem State.completeAll_same (e : EntryId) (f : SlotId → Outcome × Byte × Nat) :
    SameButCompletions s (s.completeAll e f) := State.foldl_complete_same _ f s

/-- Completing, one after another, different commands of one station with outcomes that deliver nothing: one
completion for each in order, their slots free, their records READY, and the blocks as they were. -/
theorem State.foldl_complete (l : List SlotId) (f : SlotId → Outcome × Byte × Nat) (e : EntryId) (s : State)
    (hnodup : l.Nodup) (hplace : ∀ i ∈ l, ∃ x, s.slot i = some x ∧ x.place = .station e)
    (hf : ∀ i, (f i).1.delivers = false) :
    let t := l.foldl (fun t i => t.complete i (f i).1 (f i).2.1 (f i).2.2 none) s
    t.queue.entries = s.queue.entries ++ l.filterMap (fun i => (s.slot i).map fun x =>
      x.completion (f i).1 (f i).2.1 (f i).2.2 x.handle) ∧
    (∀ i, t.slot i = if i ∈ l then none else s.slot i) ∧
    (∀ h, t.record h = if ∃ i ∈ l, (s.slot i).bind Slot.handle = some h
      then { s.record h with state := .ready, keep := false } else s.record h) ∧
    t.store = { s.store with descriptors := t.store.descriptors } ∧ t.host = s.host ∧
    t.command.broadcastList = s.command.broadcastList ∧
    (t.entry e).pendingList = (s.entry e).pendingList.diff l ∧
    (∀ d, d ≠ e → t.entry d = s.entry d) := by
  induction l generalizing s with
  | nil => simp [List.diff_nil]
  | cons i l ih =>
    obtain ⟨hi, hl⟩ := List.nodup_cons.mp hnodup
    obtain ⟨x, hx, hp⟩ := hplace i (by simp)
    have hslots : ∀ j, (s.complete i (f i).1 (f i).2.1 (f i).2.2 none).slot j =
        if i = j then none else s.slot j := by
      intro j
      rw [s.complete_some _ _ _ _ _ x hx, State.post_slot]
      simp [State.slot, (s.settled_sameButStore x.handle (f i).1).command]
    have hother : ∀ j ∈ l, (s.complete i (f i).1 (f i).2.1 (f i).2.2 none).slot j = s.slot j := by
      intro j hj
      rw [hslots, if_neg fun h : i = j => hi (h ▸ hj)]
    have hrec : ∀ g, (s.complete i (f i).1 (f i).2.1 (f i).2.2 none).record g =
        if x.handle = some g then { s.record g with state := .ready, keep := false } else s.record g := by
      intro g
      rw [s.complete_some _ _ _ _ _ x hx, State.post_record,
        State.settled_record_of_not_delivers _ _ _ (hf i)]
    obtain ⟨iq, is, ir, ist, ih', ib, ie, id⟩ := ih (s.complete i (f i).1 (f i).2.1 (f i).2.2 none) hl
      (fun j hj => by
        obtain ⟨y, hy, hyp⟩ := hplace j (by simp [hj])
        exact ⟨y, by rw [hother j hj, hy], hyp⟩)
    have hbase := s.settled_sameButStore x.handle (f i).1
    obtain ⟨hst, hh⟩ := s.settled_store_of_not_delivers x.handle (f i).1 (hf i)
    rw [List.foldl_cons]
    refine ⟨?_, ?_, ?_, ?_, ?_, ?_, ?_, ?_⟩
    · rw [iq, List.filterMap_cons, hx]
      have : (s.complete i (f i).1 (f i).2.1 (f i).2.2 none).queue.entries = s.queue.entries ++
          [x.completion (f i).1 (f i).2.1 (f i).2.2 x.handle] := by
        rw [s.complete_some _ _ _ _ _ x hx, State.post_queue, CompletionQueue.evalPosting_entries,
          hbase.queue, State.completedHandle_of_not_delivers _ _ _ (hf i)]
      rw [this, List.append_assoc]
      congr 1
      simp only [Option.map_some, List.singleton_append, List.cons.injEq, true_and]
      exact List.filterMap_congr fun j hj => by rw [hother j hj]
    · intro j
      rw [is j, hslots]
      by_cases hj : j ∈ l
      · simp [hj]
      · by_cases hij : i = j <;> simp [hj, hij, eq_comm]
    · intro g
      rw [ir g, hrec g]
      have hex : (∃ j ∈ l, ((s.complete i (f i).1 (f i).2.1 (f i).2.2 none).slot j).bind Slot.handle = some g) ↔
          ∃ j ∈ l, (s.slot j).bind Slot.handle = some g := by
        constructor <;> rintro ⟨j, hj, h⟩ <;> refine ⟨j, hj, ?_⟩ <;> simpa [hother j hj] using h
      simp only [hex, List.mem_cons, exists_eq_or_imp, hx, Option.bind_some]
      by_cases h1 : x.handle = some g <;> by_cases h2 : ∃ j ∈ l, (s.slot j).bind Slot.handle = some g <;>
        simp [h1, h2]
    · rw [ist, s.complete_some _ _ _ _ _ x hx, State.post_store, hst]
    · rw [ih', s.complete_some _ _ _ _ _ x hx]
      refine (State.post_same _ i x.place _).host.trans ?_
      have : ((s.settled x.handle (f i).1).post i x.place
          (x.completion (f i).1 (f i).2.1 (f i).2.2 (s.completedHandle x.handle (f i).1 none))).host =
          (s.settled x.handle (f i).1).host := by rw [hp]; rfl
      rw [this, hh]
    · rw [ib, s.complete_some _ _ _ _ _ x hx, State.post_broadcastList, hp]
      simp [hbase.command]
    · rw [ie, s.complete_some _ _ _ _ _ x hx, State.post_entry, hp, if_pos rfl]
      simp [State.entry, hbase.table, List.diff_cons]
    · intro d hd
      rw [id d hd, s.complete_some _ _ _ _ _ x hx, State.post_entry, hp]
      have : Place.station e ≠ Place.station d := fun h => hd (by injection h with h; exact h.symm)
      simp [this, State.entry, hbase.table]

end Sys2Proof.Machine
end

