-- ==== Sys2Proof/Laws/Heads.lean ====
section
/-! SUPPORT. What completing a station's head, and every command of its list, leaves, in the terms the statements are
made in (R5, R7, R163, R165, R166). -/

namespace Sys2Proof.Machine

open Sys2Proof.Safety

/-! ### The queue after a run of completions -/

@[simp] theorem queueAfter_nil (q : CompletionQueue) : queueAfter q [] = q := by simp [queueAfter]

@[simp] theorem queueAfter_entries (q : CompletionQueue) (l : List Completion) :
    (queueAfter q l).entries = q.entries ++ l := by
  unfold queueAfter
  split
  · simp_all
  · split <;> rfl

/-- One completion joined and evaluated is a run of one (R163, R165). -/
theorem CompletionQueue.evalPosting_join (q : CompletionQueue) (c : Completion) :
    ({ q with entries := q.entries ++ [c] } : CompletionQueue).evalPosting = queueAfter q [c] := by
  simp [queueAfter, CompletionQueue.evalPosting, CompletionQueue.atThreshold]

/-- A run of completions and another after it are one run. -/
theorem queueAfter_append (q : CompletionQueue) (a b : List Completion) :
    queueAfter (queueAfter q a) b = queueAfter q (a ++ b) := by
  by_cases ha : a = []
  · simp [ha]
  by_cases hb : b = []
  · simp [hb]
  unfold queueAfter
  simp only [ha, hb, if_false, List.append_eq_nil_iff, and_self, List.length_append]
  split
  · simp only [List.length_append]
    rw [if_pos (by omega), if_pos (by omega)]
    simp
  · simp only [List.length_append]
    split
    · rw [if_pos (by omega)]
      simp
    · rw [if_neg (by omega)]
      simp

variable (s : State)

/-- Completing one command of a slot in use posts a run of one. -/
theorem State.complete_queue (i : SlotId) (o : Outcome) (d : Byte) (n : Nat) (g : Option Handle) (x : Slot)
    (h : s.slot i = some x) :
    (s.complete i o d n g).queue =
      queueAfter s.queue [x.completion o d n (s.completedHandle x.handle o g)] := by
  rw [s.complete_some i o d n g x h, State.post_queue, (s.settled_sameButStore x.handle o).queue,
    CompletionQueue.evalPosting_join]

/-- Completing the commands of different slots one after another, with outcomes that deliver nothing, posts one run
(R7, R163). -/
theorem State.foldl_complete_queue (l : List SlotId) (f : SlotId → Outcome × Byte × Nat) (s : State)
    (hnodup : l.Nodup) (hf : ∀ i, (f i).1.delivers = false) :
    (l.foldl (fun t i => t.complete i (f i).1 (f i).2.1 (f i).2.2 none) s).queue =
      queueAfter s.queue (l.filterMap fun i => (s.slot i).map fun x =>
        x.completion (f i).1 (f i).2.1 (f i).2.2 x.handle) := by
  induction l generalizing s with
  | nil => simp
  | cons i l ih =>
    obtain ⟨hi, hl⟩ := List.nodup_cons.mp hnodup
    have hother : ∀ j ∈ l, (s.complete i (f i).1 (f i).2.1 (f i).2.2 none).slot j = s.slot j := by
      intro j hj
      cases hx : s.slot i with
      | none => rw [s.complete_none _ _ _ _ _ hx]
      | some x =>
        rw [s.complete_some _ _ _ _ _ x hx, State.post_slot, if_neg fun h : i = j => hi (h ▸ hj)]
        simp [State.slot, (s.settled_sameButStore x.handle (f i).1).command]
    rw [List.foldl_cons, ih _ hl, List.filterMap_cons]
    have hmap : (l.filterMap fun j => ((s.complete i (f i).1 (f i).2.1 (f i).2.2 none).slot j).map fun x =>
        x.completion (f j).1 (f j).2.1 (f j).2.2 x.handle) =
        l.filterMap fun j => (s.slot j).map fun x => x.completion (f j).1 (f j).2.1 (f j).2.2 x.handle :=
      List.filterMap_congr fun j hj => by rw [hother j hj]
    rw [hmap]
    cases hx : s.slot i with
    | none => rw [s.complete_none _ _ _ _ _ hx]; simp
    | some x =>
      rw [s.complete_queue i _ _ _ _ x hx, queueAfter_append,
        State.completedHandle_of_not_delivers _ _ _ (hf i)]
      simp

/-! ### The record of a completed command -/

/-- A record that is freed gives its blocks back (R118, R121, R130, R131). -/
theorem State.freeRecord_returned (h : Handle) : BlocksReturned s (s.freeRecord h) (s.record h).chain := by
  refine ⟨by simp, by simp, ?_, ?_, ?_, ?_⟩
  all_goals simp only [State.freeRecord, State.returnBlocks_eq]
  all_goals try rfl
  by_cases hc : (s.record h).chain = []
  · simp [hc]
  · simp [hc, Restraint.afterIncrease]
    rfl

/-- A command that names no record settles none (R129). -/
@[simp] theorem State.settled_none (o : Outcome) : s.settled none o = s := rfl

/-- A record delivered with KEEP clear is freed (R129). -/
theorem State.settled_freed (h : Handle) (o : Outcome) (ho : o.delivers = true) (hk : (s.record h).keep = false) :
    s.settled (some h) o = s.freeRecord h ∧ ∀ g, s.completedHandle (some h) o g = none := by
  simp [State.settled, State.settleRecord, State.completedHandle, State.keptHandle, ho, hk]

/-- A record not delivered, or delivered with KEEP set, is READY (R129). -/
theorem State.settled_ready (h : Handle) (o : Outcome) (ho : o.delivers = false ∨ (s.record h).keep = true) :
    s.settled (some h) o = s.readyRecord h ∧ ∀ g, s.completedHandle (some h) o g = some h := by
  rcases ho with ho | ho <;>
    simp [State.settled, State.settleRecord, State.completedHandle, State.keptHandle, ho]

/-- A record made READY keeps its blocks (R129). -/
theorem State.readyRecord_sameBlocks (h : Handle) : SameBlocks s (s.readyRecord h) :=
  ⟨rfl, rfl, rfl, rfl, rfl⟩

/-! ### A list and its head -/

theorem List.diff_self_nil {α : Type} [DecidableEq α] (l : List α) : l.diff l = [] := by
  induction l with
  | nil => rfl
  | cons a l ih => simp [List.diff_cons, ih]

theorem List.diff_takeWhile {α : Type} [DecidableEq α] (p : α → Bool) (l : List α) :
    l.diff (l.takeWhile p) = l.dropWhile p := by
  induction l with
  | nil => rfl
  | cons a l ih =>
    cases h : p a with
    | true => simp [h, List.diff_cons, ih]
    | false => simp [h, List.diff_nil]

/-- Every command of a station's list completes with outcomes that deliver nothing (R7, R14, R18, R108): the run
posted, the slots and records left, and everything else as it was. -/
theorem State.completeAll_finished (e : EntryId) (f : SlotId → Outcome × Byte × Nat)
    (g : SlotId → Slot → Outcome × Byte × Nat) (hs : SlotsListed s) (hf : ∀ i, (f i).1.delivers = false)
    (hg : ∀ i x, s.slot i = some x → f i = g i x) :
    (s.completeAll e f).queue = queueAfter s.queue (completionsOf s e g) ∧
    ListFinished s (s.completeAll e f) e ∧ SameBlocks s (s.completeAll e f) ∧
    (s.completeAll e f).host = s.host ∧
    (s.completeAll e f).command = { s.command with slots := (s.completeAll e f).command.slots } ∧
    (s.completeAll e f).table = { s.table with entries := (s.completeAll e f).table.entries } ∧
    (s.completeAll e f).entry e = { s.entry e with pendingList := [] } ∧
    ∀ d, d ≠ e → (s.completeAll e f).entry d = s.entry d := by
  have hplace : ∀ i ∈ (s.entry e).pendingList, ∃ x, s.slot i = some x ∧ x.place = .station e := by
    intro i hi
    simpa using (hs.1 i e).mp hi
  obtain ⟨_, hslot, hrec, hstore, hhost, hb, hl, hd⟩ := State.foldl_complete _ f e s (hs.2.2.1 e) hplace hf
  have hsame := s.completeAll_same e f
  have hq := State.foldl_complete_queue _ f s (hs.2.2.1 e) hf
  refine ⟨?_, ⟨hslot, hrec⟩, ?_, hhost, ?_, ?_, ?_, hd⟩
  · refine hq.trans (congrArg _ (List.filterMap_congr fun i _ => ?_))
    cases hx : s.slot i with
    | none => rfl
    | some x => simp [← hg i x hx, Slot.completion]
  · refine ⟨?_, ?_, ?_, ?_, ?_⟩ <;> (unfold State.completeAll; rw [hstore])
  · show _ = CommandUnit.mk _ _ _ _
    rw [← hsame.params, ← hsame.result, ← show _ = s.command.broadcastList from hb]
    rfl
  · show _ = StationTable.mk _ _ _ _ _
    rw [← hsame.lostSummary, ← hsame.probeInterval, ← hsame.probeLimit, ← hsame.holdBackoff]
  · have := hsame.entry e
    rw [show ((s.completeAll e f).entry e).pendingList = _ from hl, List.diff_self_nil] at this
    exact this

/-- Settling a command's record, whatever the outcome, leaves every other record as it was (R129). -/
theorem State.settled_record_other (h : Option Handle) (o : Outcome) (g : Handle) (hg : h ≠ some g) :
    (s.settled h o).record g = s.record g := by
  cases h with
  | none => rfl
  | some h =>
    have hne : h ≠ g := fun e => hg (e ▸ rfl)
    simp only [State.settled, State.settleRecord]
    split <;> simp [hne]

/-- The head of a station's list completes, and the marked commands directly behind it with it (R5, R163): what it
leaves, the head's own record and the blocks being as its outcome settles them (R129). -/
theorem State.completeHead_finished (e : EntryId) (i : SlotId) (behind : List SlotId) (y : Slot) (o : Outcome)
    (d : Byte) (n : Nat) (g : Option Handle) (hs : SlotsListed s) (hy : s.slot i = some y)
    (hl : (s.entry e).pendingList = i :: behind) :
    HeadCompleted s (s.completeHead i o d n g) e i behind
      (y.completion o d n (s.completedHandle y.handle o g)) ∧
    (s.completeHead i o d n g).entry e = { s.entry e with pendingList := behind.dropWhile s.marked } ∧
    SameBlocks (s.settled y.handle o) (s.completeHead i o d n g) ∧
    (s.completeHead i o d n g).host = (s.settled y.handle o).host ∧
    (s.completeHead i o d n g).exchange = s.exchange ∧
    ∀ h, y.handle = some h → (∀ j ∈ behind, (s.slot j).bind Slot.handle ≠ some h) →
      (s.completeHead i o d n g).record h = (s.settled y.handle o).record h := by
  have hplace : y.place = .station e := by
    have := (hs.1 i e).mp (by simp [hl])
    simpa [hy] using this
  obtain ⟨hi, hb⟩ := List.nodup_cons.mp (hl ▸ hs.2.2.1 e)
  have hbase := s.settled_sameButStore y.handle o
  have h1 := s.complete_some i o d n g y hy
  have hslot1 : ∀ j, (s.complete i o d n g).slot j = if i = j then none else s.slot j := by
    intro j
    rw [h1, State.post_slot]
    simp [State.slot, hbase.command]
  have hother : ∀ j ∈ behind, (s.complete i o d n g).slot j = s.slot j := by
    intro j hj
    rw [hslot1, if_neg fun h : i = j => hi (h ▸ hj)]
  have hrun : ((s.complete i o d n g).entry e).pendingList.takeWhile (s.complete i o d n g).marked =
      behind.takeWhile s.marked := by
    have hpl : ((s.complete i o d n g).entry e).pendingList = behind := by
      rw [h1, State.post_entry, if_pos hplace]
      simp [State.entry, hbase.table, show (s.table.entries[e.val]).pendingList = i :: behind from hl]
    rw [hpl]
    have : ∀ l : List SlotId, (∀ j ∈ l, (s.complete i o d n g).slot j = s.slot j) →
        l.takeWhile (s.complete i o d n g).marked = l.takeWhile s.marked := by
      intro l hl'
      induction l with
      | nil => rfl
      | cons a l ih =>
        have ha : (s.complete i o d n g).marked a = s.marked a := by
          simp [State.marked, hl' a (by simp)]
        simp [List.takeWhile_cons, ha, ih fun j hj => hl' j (by simp [hj])]
    exact this behind hother
  have hsub : ∀ j ∈ behind.takeWhile s.marked, j ∈ behind := fun j hj =>
    (List.takeWhile_prefix s.marked).subset hj
  have ht : s.completeHead i o d n g = (behind.takeWhile s.marked).foldl
      (fun t i => t.complete i .cancelled 0#8 0 none) (s.complete i o d n g) := by
    have : s.completeHead i o d n g = (s.complete i o d n g).cancelMarked e := by
      simp [State.completeHead, hy, hplace]
    rw [this, State.cancelMarked, hrun]
  have hnodup : (behind.takeWhile s.marked).Nodup := hb.sublist (List.takeWhile_sublist _)
  have hmem : ∀ j ∈ behind.takeWhile s.marked, ∃ x, (s.complete i o d n g).slot j = some x ∧
      x.place = .station e := by
    intro j hj
    rw [hother j (hsub j hj)]
    have := (hs.1 j e).mp (by simp [hl, hsub j hj])
    simpa using this
  obtain ⟨_, hsl, hrec, hstore, hhost, hbl, hpl, hde⟩ := State.foldl_complete (behind.takeWhile s.marked)
    (fun _ => (.cancelled, 0#8, 0)) e (s.complete i o d n g) hnodup hmem (fun _ => rfl)
  have hq := State.foldl_complete_queue (behind.takeWhile s.marked) (fun _ => (.cancelled, 0#8, 0))
    (s.complete i o d n g) hnodup (fun _ => rfl)
  have hsame := (s.complete_same i o d n g).trans (State.foldl_complete_same (behind.takeWhile s.marked)
    (fun _ => (.cancelled, 0#8, 0)) (s.complete i o d n g))
  simp only [] at hsl hrec hstore hhost hbl hpl hde hq hsame
  rw [← ht] at hsl hrec hstore hhost hbl hpl hde hq hsame
  have hpl1 : ((s.complete i o d n g).entry e).pendingList = behind := by
    rw [h1, State.post_entry, if_pos hplace]
    simp [State.entry, hbase.table, show (s.table.entries[e.val]).pendingList = i :: behind from hl]
  have hstore1 : (s.complete i o d n g).store = (s.settled y.handle o).store := by rw [h1, State.post_store]
  have hhost1 : (s.complete i o d n g).host = (s.settled y.handle o).host := by
    rw [h1, hplace]
    rfl
  have hrec1 : ∀ h, (s.complete i o d n g).record h = (s.settled y.handle o).record h := by
    intro h
    simp [State.record, hstore1]
  have hex : ∀ h, (∃ j ∈ behind.takeWhile s.marked, ((s.complete i o d n g).slot j).bind Slot.handle = some h) ↔
      ∃ j ∈ behind.takeWhile s.marked, (s.slot j).bind Slot.handle = some h := by
    intro h
    constructor <;> rintro ⟨j, hj, k⟩ <;> refine ⟨j, hj, ?_⟩ <;> simpa [hother j (hsub j hj)] using k
  refine ⟨⟨?_, ?_, ?_, ?_, ?_, ?_, hsame.arbiter, hsame.line, hsame.inbound, hsame.lastClose,
    hsame.resetHeld, hsame.readData, hsame.pending⟩, ?_, ?_, ?_, hsame.exchange, ?_⟩
  · rw [hq, s.complete_queue i o d n g y hy, queueAfter_append, List.singleton_append]
    congr 2
    exact List.filterMap_congr fun j hj => by rw [hother j (hsub j hj)]; rfl
  · intro j
    rw [hsl, hslot1]
    by_cases hj : j ∈ behind.takeWhile s.marked
    · simp [hj]
    · by_cases hij : i = j <;> simp [hj, hij, eq_comm]
  · intro h hh
    rw [hrec, hrec1, s.settled_record_other _ _ _ (by simpa [hy] using hh)]
    simp only [hex]
  · intro f hf
    rw [hde f hf, h1, State.post_entry, hplace, if_neg fun k => hf (by injection k with k; exact k.symm)]
    simp [State.entry, hbase.table]
  · have hb1 : (s.complete i o d n g).command.broadcastList = s.command.broadcastList := by
      rw [h1, State.post_broadcastList, hplace, hbase.command]
      rfl
    show _ = CommandUnit.mk _ _ _ _
    rw [← hsame.params, ← hsame.result, ← hb1, ← hbl]
  · show _ = StationTable.mk _ _ _ _ _
    rw [← hsame.lostSummary, ← hsame.probeInterval, ← hsame.probeLimit, ← hsame.holdBackoff]
  · have := hsame.entry e
    rw [hpl, hpl1, List.diff_takeWhile] at this
    exact this
  · refine ⟨?_, ?_, ?_, ?_, ?_⟩ <;> rw [hstore, ← hstore1]
  · rw [hhost, hhost1]
  · intro h hh hno
    rw [hrec, hrec1, if_neg]
    rw [hex]
    rintro ⟨j, hj, k⟩
    exact hno j (hsub j hj) k

/-- The head completed after the station's own entry has changed in anything but its list: what it leaves, said
of the state before the change. -/
theorem State.completeHead_after (E : Entry) (e : EntryId) (i : SlotId) (behind : List SlotId) (y : Slot) (o : Outcome)
    (d : Byte) (n : Nat) (g : Option Handle) (hs : SlotsListed s) (hy : s.slot i = some y)
    (hl : (s.entry e).pendingList = i :: behind) (hE : E.pendingList = (s.entry e).pendingList) :
    let t := (s.setEntry e E).completeHead i o d n g
    HeadCompleted s t e i behind (y.completion o d n (s.completedHandle y.handle o g)) ∧
    t.entry e = { E with pendingList := behind.dropWhile s.marked } ∧
    SameBlocks (s.settled y.handle o) t ∧ t.host = (s.settled y.handle o).host ∧ t.exchange = s.exchange ∧
    ∀ h, y.handle = some h → (∀ j ∈ behind, (s.slot j).bind Slot.handle ≠ some h) →
      t.record h = (s.settled y.handle o).record h := by
  intro t
  have hpl : ∀ f, ((s.setEntry e E).entry f).pendingList = (s.entry f).pendingList := by
    intro f
    by_cases h : e = f
    · subst h
      simp [hE]
    · simp [h]
  have hus : SlotsListed (s.setEntry e E) :=
    ⟨fun i f => by rw [hpl]; exact hs.1 i f, hs.2.1, fun f => by rw [hpl]; exact hs.2.2.1 f, hs.2.2.2⟩
  have hue : (s.setEntry e E).entry e = E := by simp
  obtain ⟨h1, h2, h3, h4, h5, h6⟩ := (s.setEntry e E).completeHead_finished e i behind y o d n g hus hy
    (by rw [hue, hE, hl])
  have hset : ((s.setEntry e E).settled y.handle o).store = (s.settled y.handle o).store ∧
      ((s.setEntry e E).settled y.handle o).host = (s.settled y.handle o).host := by
    cases y.handle with
    | none => exact ⟨rfl, rfl⟩
    | some h =>
      simp only [State.settled, State.settleRecord]
      have : (s.setEntry e E).record h = s.record h := rfl
      rw [this]
      split
      · simp only [State.freeRecord, State.returnBlocks_eq]
        exact ⟨rfl, rfl⟩
      · exact ⟨rfl, rfl⟩
  refine ⟨?_, by rw [h2, hue]; rfl, ?_, h4.trans hset.2, h5, fun h hh hno => ?_⟩
  · obtain ⟨a1, a2, a3, a4, a5, a6, a7, a8, a9, a10, a11, a12, a13⟩ := h1
    refine ⟨a1, a2, a3, fun d hd => ?_, a5, a6, a7, a8, a9, a10, a11, a12, a13⟩
    rw [a4 d hd]
    simp [Ne.symm hd]
  · obtain ⟨b1, b2, b3, b4, b5⟩ := h3
    rw [hset.1] at b1 b2 b3 b4 b5
    exact ⟨b1, b2, b3, b4, b5⟩
  · rw [h6 h hh hno]
    simp [State.record, hset.1]

/-- A station is lost, its own entry having changed in anything but its list: what the transition to FAILED
leaves, said of the state before the change (R107, R108, R109). -/
theorem State.loseStation_lost (E : Entry) (e : EntryId) (b : Bool) (hs : SlotsListed s)
    (hE : E.pendingList = (s.entry e).pendingList) (g : SlotId → Slot → Outcome × Byte × Nat)
    (hg : ∀ i y, s.slot i = some y → (s.setEntry e E).lossOutcome e b i = g i y) (t : State)
    (ht : t = (s.setEntry e E).loseStation e b) :
    t.entry e = E.lost ∧ t.exchange = s.exchange ∧ t.queue = queueAfter s.queue (completionsOf s e g) ∧
    ListFinished s t e ∧ (∀ j, j ≠ e → t.entry j = s.entry j) ∧ SameBlocks s t ∧
    (t.table = { s.table with
      entries := t.table.entries, lostSummary := s.table.lostSummary ||| (1#16 <<< e.val) }) ∧
    t.host = { s.host with stationLost := true } ∧ t.inbound = s.inbound ∧ t.line = s.line ∧
    t.arbiter = s.arbiter ∧ t.command = { s.command with slots := t.command.slots } ∧
    t.lastClose = s.lastClose ∧ t.resetHeld = s.resetHeld ∧ t.readData = s.readData ∧ t.pending = s.pending := by
  have hpl : ∀ f, ((s.setEntry e E).entry f).pendingList = (s.entry f).pendingList := by
    intro f
    by_cases h : e = f
    · subst h
      simp [hE]
    · simp [h]
  have hus : SlotsListed (s.setEntry e E) :=
    ⟨fun i f => by rw [hpl]; exact hs.1 i f, hs.2.1, fun f => by rw [hpl]; exact hs.2.2.1 f, hs.2.2.2⟩
  have hue : (s.setEntry e E).entry e = E := by simp
  obtain ⟨h1, h2, h3, h4, h5, _, h7, h8⟩ := (s.setEntry e E).completeAll_finished e _ g hus
    (by
      intro i
      simp only [State.lossOutcome]
      split
      · split <;> rfl
      · split <;> rfl)
    hg
  have hsame := (s.setEntry e E).completeAll_same e ((s.setEntry e E).lossOutcome e b)
  have hcomp : completionsOf (s.setEntry e E) e g = completionsOf s e g := by
    simp only [completionsOf, hpl]
    rfl
  have ht' : t = (((s.setEntry e E).completeAll e ((s.setEntry e E).lossOutcome e b)).setEntry e
      (((s.setEntry e E).completeAll e ((s.setEntry e E).lossOutcome e b)).entry e).lost).latchStationLost e := ht
  clear ht
  generalize (s.setEntry e E).completeAll e ((s.setEntry e E).lossOutcome e b) = w at *
  subst ht'
  refine ⟨?_, hsame.exchange, ?_, ⟨?_, ?_⟩, fun j hj => ?_, h3, ?_, ?_, hsame.inbound, hsame.line, hsame.arbiter, h5,
    hsame.lastClose, hsame.resetHeld, hsame.readData, hsame.pending⟩
  · rw [h7, hue]
    show State.entry (State.setEntry w e _) e = _
    simp
    rfl
  · exact h1.trans (by rw [hcomp]; rfl)
  · intro i
    have := h2.1 i
    rw [hpl] at this
    exact this
  · intro i
    have := h2.2 i
    rw [hpl] at this
    exact this
  · show State.entry (State.setEntry w e _) j = _
    rw [State.entry_setEntry, if_neg (Ne.symm hj), h8 j hj]
    simp [Ne.symm hj]
  · show StationTable.mk _ _ _ _ _ = StationTable.mk _ _ _ _ _
    rw [← show w.table.lostSummary = s.table.lostSummary from hsame.lostSummary,
      ← show w.table.probeInterval = s.table.probeInterval from hsame.probeInterval,
      ← show w.table.probeLimit = s.table.probeLimit from hsame.probeLimit,
      ← show w.table.holdBackoff = s.table.holdBackoff from hsame.holdBackoff]
    rfl
  · show HostWindow.mk _ _ _ _ _ _ _ _ = _
    rw [← show w.host = s.host from h4]
    rfl

end Sys2Proof.Machine
end

