-- ==== Sys2Proof/Laws/Exchanges.lean ====
section
/-! SUPPORT. What each operation on the exchange in flight and on an arrival does, said once (R25, R30, R31, R41, R44,
R89, R104, R137 to R144). -/

namespace Sys2Proof.Machine

open Sys2Proof.Safety

variable (s : State)

/-! ### Sending -/

/-- A frame handed over: the Marker is on the line, its echo awaited, the receiver in ECHO (R86, R88, R90). -/
theorem State.startSending_eq (f : OutFrame) :
    s.startSending f = { s with line := { s.line with
      tx := some (f.begin s.line.rate), echoList := [⟨0xE0#8, 2⟩], rx := .echo } } := rfl

/-- The attempt count writes the slot served and nothing else (R106). -/
theorem State.countAttempt_slot (i : Option SlotId) (j : SlotId) :
    (s.countAttempt i).slot j =
      if i = some j then (s.slot j).map fun x => { x with attempts := satInc x.attempts } else s.slot j := by
  unfold State.countAttempt
  cases i with
  | none => simp
  | some i =>
    cases hx : s.slot i with
    | none =>
      show (match s.slot i with | some x => _ | none => s).slot j = _
      rw [hx]
      by_cases h : i = j
      · subst h
        simp [hx]
      · simp [h]
    | some x =>
      show (match s.slot i with | some x => _ | none => s).slot j = _
      rw [hx]
      by_cases h : i = j
      · subst h
        simp [hx]
      · simp [h]

theorem State.countAttempt_frame (i : Option SlotId) :
    s.countAttempt i =
      { s with command := { s.command with slots := (s.countAttempt i).command.slots } } := by
  unfold State.countAttempt
  split
  · split <;> rfl
  · rfl

/-- GUARD is left for TRANSMIT: the attempt is counted, the frame handed over, and the reply's fields cleared. -/
theorem State.enterTransmit_eq (x : Exchange) :
    s.enterTransmit x =
      { s with
        command := (s.countAttempt x.slot).command
        exchange := some { x with phase := .transmit, header := none, firstPayload := none }
        line := { s.line with
          tx := some (((s.countAttempt x.slot).attemptFrame x).begin s.line.rate)
          echoList := [⟨0xE0#8, 2⟩], rx := .echo } } := by
  have h : s.enterTransmit x =
      ((s.countAttempt x.slot).startSending ((s.countAttempt x.slot).attemptFrame x)).setExchange
        (some { x with phase := .transmit, header := none, firstPayload := none }) := rfl
  rw [h, State.startSending_eq]
  generalize hf : ((s.countAttempt x.slot).attemptFrame x) = f
  rw [s.countAttempt_frame x.slot]
  rfl

/-- LINE_ABORT and CONTROLLER_RESET cut a transmission that the receiver is following, and nothing else (R89). -/
theorem State.cutTransmission_eq (h : s.line.rx = .echo) :
    s.cutTransmission = { s with line := { s.line with
      tx := s.line.tx.map fun y => { y with stopRequested := true }, echoList := [], rx := .drain } } := by
  simp [State.cutTransmission, h, State.stopRequest]

theorem State.cutTransmission_else (h : s.line.rx ≠ .echo) : s.cutTransmission = s := by
  unfold State.cutTransmission
  split
  · rename_i h'
    exact absurd h' h
  all_goals rfl

/-! ### The end of an attempt -/

/-- A failed attempt raises both failure counts and is the last fault (R10). -/
theorem Entry.count_of_failed {o : AttemptOutcome} (ho : o.failed = true) (e : Entry) :
    e.count o = { e with consecFail := satInc e.consecFail, failTotal := satInc e.failTotal, lastFault := o } := by
  cases o <;> first | rfl | simp [AttemptOutcome.failed] at ho

@[simp] theorem Entry.count_ok (e : Entry) : e.count .ok = { e with consecFail := 0#4 } := rfl

@[simp] theorem Entry.count_aborted (e : Entry) : e.count .aborted = e := rfl

/-- Everything a report to the Station Table can do (R29, R104, R107). -/
theorem State.report_cases (p : Place) (o : AttemptOutcome) :
    (p = .broadcast ∧ s.report p o = s) ∨
      ∃ e, p = .station e ∧
        ((o.failed = true ∧ ((s.entry e).count o).consecFail = ((s.entry e).count o).failLimit ∧
            s.report p o = (s.setEntry e ((s.entry e).count o)).loseStation e false) ∨
          (¬ (o.failed = true ∧ ((s.entry e).count o).consecFail = ((s.entry e).count o).failLimit) ∧
            s.report p o = s.setEntry e ((s.entry e).count o))) := by
  cases p with
  | broadcast => exact .inl ⟨rfl, rfl⟩
  | station e =>
    refine .inr ⟨e, rfl, ?_⟩
    unfold State.report
    by_cases h : o.failed = true ∧ ((s.entry e).count o).consecFail = ((s.entry e).count o).failLimit
    · exact .inl ⟨h.1, h.2, by simp [h]⟩
    · exact .inr ⟨h, by simpa using fun h1 h2 => absurd ⟨h1, h2⟩ h⟩

/-- The exchange ends with its command pending: its SENDING record is QUEUED again, and nothing else changes (R31,
R128). -/
theorem State.closePending_eq (x : Exchange) :
    s.closePending x =
      { s with exchange := none, store := { s.store with descriptors := (s.closePending x).store.descriptors } } ∧
    ∀ h, (s.closePending x).record h =
      if (x.slot.bind s.slot).bind Slot.handle = some h ∧ (s.record h).state = .sending
      then { s.record h with state := .queued } else s.record h := by
  have hb : (x.slot.bind fun i => (s.slot i).bind Slot.handle) = (x.slot.bind s.slot).bind Slot.handle := by
    cases x.slot <;> rfl
  unfold State.closePending State.requeueRecord
  rw [hb]
  cases hg : (x.slot.bind s.slot).bind Slot.handle with
  | none => exact ⟨rfl, fun h => by simp⟩
  | some g =>
    simp only []
    split
    · rename_i hsd
      refine ⟨rfl, fun h => ?_⟩
      rw [State.setExchange_record, State.record_moveRecord]
      by_cases hgh : g = h
      · subst hgh
        simp [hsd]
      · simp [hgh]
    · rename_i hsd
      refine ⟨rfl, fun h => ?_⟩
      rw [State.setExchange_record]
      by_cases hgh : g = h
      · subst hgh
        simp [hsd]
      · simp [hgh]

/-- Everything the end of a failed attempt can do, in R30's order, on the state that has been told the outcome. -/
theorem State.failAttempt_cases (x : Exchange) (o : AttemptOutcome) :
    let told := s.report x.place o
    ((told.placeFailed x.place = true ∨ x.kind.isRound = true) ∧ s.failAttempt x o = told.setExchange none) ∨
      (x.kind = .broadcast ∧ told.broadcastSpent x.slot = true ∧
        s.failAttempt x o = told.closeDone x .echoFailed 0#8 0 none) ∨
      (told.host.run = false ∧ s.failAttempt x o = told.closePending x) ∨
      (told.host.run = true ∧ s.failAttempt x o = told.retry x o) := by
  intro told
  unfold State.failAttempt
  by_cases h1 : told.placeFailed x.place = true
  · exact .inl ⟨.inl h1, by simp [told] at h1; simp [h1, told]⟩
  by_cases h2 : x.kind.isRound = true
  · exact .inl ⟨.inr h2, by simp [h2, told]⟩
  by_cases h3 : x.kind = .broadcast ∧ told.broadcastSpent x.slot = true
  · refine .inr (.inl ⟨h3.1, h3.2, ?_⟩)
    simp only [told] at h1 h3
    rw [if_neg h1, if_neg h2, if_pos h3]
  cases h4 : told.host.run with
  | false => exact .inr (.inr (.inl ⟨rfl, by simp only [told] at h1 h3 h4; simp [h1, h2, h3, h4, told]⟩))
  | true => exact .inr (.inr (.inr ⟨rfl, by simp only [told] at h1 h3 h4; simp [h1, h2, h3, h4, told]⟩))

/-- An ECHO fault counts ECHO, empties the echo list, asks the transmitter to stop, enters DRAIN, and is reported
(R89). -/
theorem State.echoFault_eq :
    s.echoFault = State.echoFailed { s with line := { s.line with
      tx := s.line.tx.map fun y => { y with stopRequested := true }
      echo := satInc s.line.echo, echoList := [], rx := .drain } } := rfl

/-- The report of an ECHO fault, by the phase it finds (R26, R42). -/
theorem State.echoFailed_cases :
    (∃ x, s.exchange = some x ∧ x.phase = .transmit ∧ s.echoFailed = s.failAttempt x .echo) ∨
      (∃ x, s.exchange = some x ∧ x.phase = .answer ∧ s.echoFailed = s.failAnswer x) ∨
      ((∀ x, s.exchange = some x → x.phase ≠ .transmit ∧ x.phase ≠ .answer) ∧ s.echoFailed = s) := by
  unfold State.echoFailed
  cases hx : s.exchange with
  | none => simp
  | some x => cases hp : x.phase <;> simp [hp]

/-! ### Arrivals -/

/-- An arrival begins in the lowest FREE handle, or with none (R122, R137). -/
theorem State.beginArrival_cases (source : Byte) :
    (∃ h, s.lowestFreeHandle = some h ∧
        s.beginArrival source =
          (s.setRecord h { state := .arriving, length := 0, chain := [], origin := source, keep := false }).setArrival
            (some { handle := some h, source := source, seen := 0, stop := none })) ∨
      (s.lowestFreeHandle = none ∧
        s.beginArrival source =
          s.setArrival (some { handle := none, source := source, seen := 0, stop := some .noHandle })) := by
  unfold State.beginArrival
  cases hl : s.lowestFreeHandle with
  | none => exact .inr ⟨rfl, rfl⟩
  | some h => exact .inl ⟨h, rfl, rfl⟩

/-- Everything a payload byte handed over can do (R138 to R140). -/
theorem State.takePayloadByte_cases (limit : Nat) (v : Byte) (a : Arrival) (ha : s.inbound.arrival = some a) :
    ((a.stop ≠ none ∨ a.handle = none) ∧
        s.takePayloadByte limit v = s.setArrival (some { a with seen := a.seen + 1 })) ∨
      ∃ h, a.stop = none ∧ a.handle = some h ∧
        ((limit ≤ a.seen ∧ s.takePayloadByte limit v = s.stopStoring a .limit) ∨
          (a.seen < limit ∧ a.seen % 32 = 0 ∧ s.store.freeList = [] ∧
            s.takePayloadByte limit v = s.stopStoring a .noBlock) ∨
          (∃ b rest, a.seen < limit ∧ a.seen % 32 = 0 ∧ s.store.freeList = b :: rest ∧
            s.takePayloadByte limit v = (s.appendBlock h b).storeArrivalByte a h v) ∨
          (a.seen < limit ∧ a.seen % 32 ≠ 0 ∧ s.takePayloadByte limit v = s.storeArrivalByte a h v)) := by
  have e : s.takePayloadByte limit v = (match a.stop, a.handle with
      | none, some h =>
        if limit ≤ a.seen then s.stopStoring a .limit
        else if a.seen % 32 = 0 then
          match s.store.freeList with
          | [] => s.stopStoring a .noBlock
          | b :: _ => (s.appendBlock h b).storeArrivalByte a h v
        else s.storeArrivalByte a h v
      | _, _ => s.setArrival (some { a with seen := a.seen + 1 })) := by
    unfold State.takePayloadByte
    rw [ha]
    rfl
  rw [e]
  cases hs : a.stop with
  | some c => exact .inl ⟨.inl nofun, rfl⟩
  | none =>
    cases hh : a.handle with
    | none => exact .inl ⟨.inr rfl, rfl⟩
    | some h =>
      refine .inr ⟨h, rfl, rfl, ?_⟩
      by_cases h1 : limit ≤ a.seen
      · exact .inl ⟨h1, by simp [h1]⟩
      · by_cases h2 : a.seen % 32 = 0
        · cases hf : s.store.freeList with
          | nil => exact .inr (.inl ⟨by omega, h2, rfl, by simp [h1, h2]⟩)
          | cons b rest => exact .inr (.inr (.inl ⟨b, rest, by omega, h2, rfl, by simp [h1, h2]⟩))
        · exact .inr (.inr (.inr ⟨by omega, h2, by simp [h1, h2]⟩))

/-- A restart stops a STORING arrival, and changes no arrival whose storing has stopped (R141). -/
theorem State.restartArrival_eq :
    s.restartArrival = { s with inbound := { s.inbound with
      arrival := s.inbound.arrival.map fun a => { a with stop := some (a.stop.getD .restart) } } } := by
  obtain ⟨host, command, queue, table, arbiter, exchange, lastClose, line, store, ⟨arrival, list⟩, held, data,
    pending⟩ := s
  rcases arrival with _ | ⟨h, source, seen, _ | stop⟩ <;> rfl

/-- Everything the end of an arrival without a record can do (R143). -/
theorem State.discardArrival_cases :
    (s.inbound.arrival = none ∧ s.discardArrival = s) ∨
      (∃ a, s.inbound.arrival = some a ∧ a.handle = none ∧ s.discardArrival = s.setArrival none) ∨
      ∃ a h, s.inbound.arrival = some a ∧ a.handle = some h ∧
        s.discardArrival = (s.freeRecord h).setArrival none := by
  unfold State.discardArrival
  cases ha : s.inbound.arrival with
  | none => exact .inl ⟨rfl, rfl⟩
  | some a =>
    cases hh : a.handle with
    | none => exact .inr (.inl ⟨a, rfl, hh, by simp [hh]⟩)
    | some h => exact .inr (.inr ⟨a, h, rfl, hh, by simp [hh]⟩)

/-- The end of an arrival without a record, in the terms of the statements (R143). -/
theorem State.discardArrival_discarded : ArrivalDiscarded s s.discardArrival := by
  rcases s.discardArrival_cases with ⟨ha, e⟩ | ⟨a, ha, hh, e⟩ | ⟨a, h, ha, hh, e⟩
  · rw [e]
    refine ⟨?_, rfl, rfl, rfl, rfl, rfl, rfl, rfl, rfl, rfl, rfl, fun _ => ⟨rfl, rfl⟩, fun h k => ?_⟩
    · rw [← ha]
    · simp [ha] at k
  · rw [e]
    refine ⟨rfl, rfl, rfl, rfl, rfl, rfl, rfl, rfl, rfl, rfl, rfl, fun _ => ⟨rfl, rfl⟩, fun h k => ?_⟩
    simp [ha, hh] at k
  · rw [e]
    obtain ⟨a1, a2, a3, a4, a5, a6, a7, a8, a9, a10, a11, a12⟩ := s.freeRecord_sameButStore h
    refine ⟨?_, a5, a1, a2, a3, a4, a6, a10, a8, a9, a11, fun k => ?_, fun g k => ?_⟩
    · show InboundPath.mk _ _ = _
      rw [show (s.freeRecord h).inbound.list = s.inbound.list by rw [a7]]
    · simp [ha, hh] at k
    · have hg : h = g := by simpa [ha, hh] using k
      subst hg
      refine ⟨?_, fun g hg => ?_, s.freeRecord_returned h⟩
      · show (s.freeRecord h).record h = _
        simp
      · show (s.freeRecord h).record g = _
        simp [Ne.symm hg]

/-- An answered POLL completes with its decision (R41, R42, R144). -/
theorem State.completeDecision_completed (x : Exchange) (e : EntryId) (i : SlotId) (behind : List SlotId) (y : Slot)
    (d : Decision) (hd : x.decision = some d) (hi : x.slot = some i) (hy : s.slot i = some y)
    (hh : y.handle = none) (hl : (s.entry e).pendingList = i :: behind) (hs : SlotsListed s) :
    PollCompleted s (s.completeDecision x) e i behind y d := by
  have ht : s.completeDecision x = s.completeHead i d.verdict.completion.1 d.verdict.completion.2.1 d.payload
      d.verdict.completion.2.2 := by
    simp [State.completeDecision, hd, hi]
  obtain ⟨h1, h2, h3, h4, h5, _⟩ := s.completeHead_finished e i behind y d.verdict.completion.1
    d.verdict.completion.2.1 d.payload d.verdict.completion.2.2 hs hy hl
  rw [hh] at h1 h3 h4
  rw [ht]
  refine ⟨?_, h2, h3, h4, h5⟩
  convert h1 using 1
  cases hv : d.verdict with
  | noRoom b => cases b <;> simp [decisionCompletion, Slot.completion, hv, Verdict.completion, State.completedHandle]
  | _ => simp [decisionCompletion, Slot.completion, hv, Verdict.completion, State.completedHandle]

/-- With no decision or no slot an answered exchange posts nothing (R41). -/
theorem State.completeDecision_none (x : Exchange) (h : x.slot = none) : s.completeDecision x = s := by
  unfold State.completeDecision
  rw [h]
  split
  · rename_i h'
    cases h'
  · rfl

/-! ### Characters and the decoder -/

theorem goodCharacter_iff (v : Byte) (p st : Bool) :
    goodCharacter v p st = true ↔ p = evenParity v ∧ st = true := by
  simp [goodCharacter]

/-- Holding a body byte changes no mark and no destination, and counts it (R93). -/
theorem InFrame.hold_marks (f : InFrame) (v : Byte) :
    (f.hold v).dest = f.dest ∧ (f.hold v).count = f.count + 1 ∧ (f.hold v).newer = some v ∧
      (f.hold v).shiftPending = f.shiftPending ∧ (f.hold v).shiftError = f.shiftError ∧
      (f.hold v).charError = f.charError ∧ (f.hold v).oversize = f.oversize ∧
      (f.hold v).restarted = f.restarted ∧
      (f.hold v).head = (if f.count < 3 then f.head ++ [v] else f.head) := by
  unfold InFrame.hold
  split <;> exact ⟨rfl, rfl, rfl, rfl, rfl, rfl, rfl, rfl, rfl⟩

/-- A body byte decoded, in the terms of the statements (R92, R93). -/
theorem InFrame.hold_held (f : InFrame) (w : Byte) :
    ({ f with shiftPending := false } : InFrame).hold w = heldFrame f w := by
  obtain ⟨dest, count, head, older, newer, x, sm, n, p, e, c, o, r⟩ := f
  cases newer <;> cases older <;> rfl

/-- Holding a byte over a full pair releases the older one into the accumulators (R93). -/
theorem InFrame.hold_full (f : InFrame) (v o n : Byte) (ho : f.older = some o) (hn : f.newer = some n) :
    f.hold v = { f with
      count := f.count + 1, head := (if f.count < 3 then f.head ++ [v] else f.head), older := some n
      newer := some v, accXor := f.accXor ^^^ o, accSum := f.accSum + o, accCount := f.accCount + 1#8 } := by
  simp [InFrame.hold, ho, hn]

/-- When a frame's check fails, written out (R84, R94). -/
theorem InFrame.checkFails_iff (f : InFrame) :
    f.checkFails = true ↔
      ¬ (f.shiftError = true ∨ f.charError = true ∨ f.oversize = true ∨ f.restarted = true) ∧ 5 ≤ f.count ∧
        ¬ (f.older = some f.accXor ∧ f.newer = some (f.accSum + f.accCount)) := by
  unfold InFrame.checkFails InFrame.shortMark InFrame.codingMark InFrame.passesCheck
  cases f.shiftError <;> cases f.charError <;> cases f.oversize <;> cases f.restarted <;>
    simp [imp_iff_not_or]

/-- A stray frame that is closed is counted, in CHECK too when its check fails, and reported to no one (R94, R96,
R101). -/
theorem State.closeFrame_stray (f : InFrame) (h : f.dest = .stray) :
    s.closeFrame f = { s with line := { s.line with
      gapTimer := 0#4, rx := .hunt, stray := satInc s.line.stray
      check := if f.checkFails = true then satInc s.line.check else s.line.check } } := by
  unfold State.closeFrame
  simp only [h]
  cases hc : f.checkFails <;> simp [State.countStray, State.countCheck, State.setReceiver, State.stopGap, hc]

/-- A reply that is closed is counted in CHECK when its check fails, and then judged (R94, R101). -/
theorem State.closeFrame_reply (f : InFrame) (h : f.dest = .reply) :
    s.closeFrame f = State.closeReply { s with line := { s.line with
      gapTimer := 0#4, rx := .hunt
      check := if f.checkFails = true then satInc s.line.check else s.line.check } } f := by
  unfold State.closeFrame
  simp only [h]
  cases hc : f.checkFails <;> simp [State.countCheck, State.setReceiver, State.stopGap, hc]

/-- The place of a reply's close in the order of R28: OK with a kind, or a failure that discards the arrival. -/
theorem State.closeReply_cases (f : InFrame) :
    (s.exchange = none ∧ s.closeReply f = s) ∨
      ∃ x, s.exchange = some x ∧
        ((∃ k, s.judgeReply x f = (.ok, some k) ∧
            s.closeReply f = s.replyOk x k (x.header.getD ⟨0#8, 0#8, 0#8⟩) (f.count - 5)) ∨
          ((∀ k, s.judgeReply x f ≠ (.ok, some k)) ∧
            s.closeReply f = s.discardArrival.failAttempt x (s.judgeReply x f).1)) := by
  unfold State.closeReply
  cases hx : s.exchange with
  | none => exact .inl ⟨rfl, rfl⟩
  | some x =>
    refine .inr ⟨x, rfl, ?_⟩
    rcases hj : s.judgeReply x f with ⟨o, k⟩
    cases o <;> cases k <;> simp [hj]

/-- A reply judged OK has its effects (R28). -/
theorem State.closeReply_ok (x : Exchange) (f : InFrame) (k : FrameKind) (hx : s.exchange = some x)
    (hj : s.judgeReply x f = (.ok, some k)) :
    s.closeReply f = s.replyOk x k (x.header.getD ⟨0#8, 0#8, 0#8⟩) (f.count - 5) := by
  unfold State.closeReply
  rw [hx]
  simp only [hj]

/-- A report of OK brings consec_fail to 0 and nothing else (R10, R104). -/
theorem State.report_ok (e : EntryId) :
    s.report (.station e) .ok = s.setEntry e { s.entry e with consecFail := 0#4 } := by
  simp [State.report, AttemptOutcome.failed]

end Sys2Proof.Machine
end

