-- ==== Sys2Proof/Laws/Happenings.lean ====
section
/-! SUPPORT. What a happening is, what a command taken through COMMAND is, and what a happening ends with: the choice
(R64, R65) and the report of a quiet line (R97), each said once. -/

namespace Sys2Proof.Machine

open Sys2Proof.Safety

variable (s : State)

/-! ### Happenings and commands -/

/-- While RESET is high a happening has its effect and is settled (R64, R97). -/
theorem happening_next (f : State → State) (h : s.resetHeld = false) :
    happening f s = .next (s.finish (f s)) := by
  simp [happening, h]

/-- While RESET is low no happening is taken (R189). -/
theorem happening_held (f : State → State) (h : s.resetHeld = true) : happening f s = .next s := by
  simp [happening, h]

/-- A happening always has a next state. -/
theorem happening_cases (f : State → State) :
    (s.resetHeld = true ∧ happening f s = .next s) ∨
      (s.resetHeld = false ∧ happening f s = .next (s.finish (f s))) := by
  cases h : s.resetHeld
  · exact .inr ⟨rfl, happening_next s f h⟩
  · exact .inl ⟨rfl, happening_held s f h⟩

/-- A happening that ends a wait for a reply makes the choice and no report of a quiet line (R23, R27, R64). -/
theorem endOfWait_waiting (f : State → State) (h : s.resetHeld = false) (hw : s.awaitsReply = true) :
    endOfWait f s = .next (s.finishWait (f s)) := by
  simp [endOfWait, h, hw]

/-- Where no reply is awaited such a happening is one like any other (R64, R97). -/
theorem endOfWait_else (f : State → State) (hw : s.awaitsReply = false) : endOfWait f s = happening f s := by
  simp [endOfWait, happening, hw]

/-- Such a happening always has a next state. -/
theorem endOfWait_cases (f : State → State) :
    (s.resetHeld = true ∧ endOfWait f s = .next s) ∨
      (s.resetHeld = false ∧ s.awaitsReply = true ∧ endOfWait f s = .next (s.finishWait (f s))) ∨
      (s.resetHeld = false ∧ s.awaitsReply = false ∧ endOfWait f s = .next (s.finish (f s))) := by
  cases h : s.resetHeld <;> cases hw : s.awaitsReply <;> simp [endOfWait, h, hw]

/-- The exchange awaits its reply in AWAIT_REPLY and in RECEIVE_REPLY, and in no other phase (R23). -/
theorem State.awaitsReply_iff :
    s.awaitsReply = true ↔ ∃ x ∈ s.exchange, x.phase = .awaitReply ∨ x.phase = .receiveReply := by
  cases h : s.exchange <;> simp [State.awaitsReply, h]

/-- What `reportDue` says (R97). -/
theorem State.reportDue_iff :
    s.reportDue = true ↔ s.resetHeld = false ∧ s.line.guardTimer = 0#4 ∧ s.line.rx = .hunt ∧ s.line.tx = none ∧
      ∃ x ∈ s.exchange, x.phase = .guard ∨ (x.phase = .answerGuard ∧ x.decision.isSome = true) := by
  cases h : s.exchange <;> simp [State.reportDue, State.lineQuiet, h, and_assoc]

/-- While RESET is low no command is taken (R189). -/
theorem takeCommand_held (f : State → Except Reason (State × BitVec 6)) (h : s.resetHeld = true) :
    takeCommand f s = .next s := by
  simp [takeCommand, h]

/-- A command that its checks refuse writes CMD_RESULT and nothing else (R155). -/
theorem takeCommand_error (f : State → Except Reason (State × BitVec 6)) (r : Reason) (h : s.resetHeld = false)
    (hf : f s = .error r) : takeCommand f s = .next (s.refuse r).finishCommand := by
  simp [takeCommand, h, commandEffect, hf]

/-- A command that its checks accept has its effects, and CMD_RESULT is written after them (R153, R154). -/
theorem takeCommand_ok (f : State → Except Reason (State × BitVec 6)) (t : State) (v : BitVec 6)
    (h : s.resetHeld = false) (hf : f s = .ok (t, v)) : takeCommand f s = .next (t.accept v).finishCommand := by
  simp [takeCommand, h, commandEffect, hf]

/-- Everything a command taken through COMMAND can do. -/
theorem takeCommand_cases (f : State → Except Reason (State × BitVec 6)) :
    (s.resetHeld = true ∧ takeCommand f s = .next s) ∨
      (∃ r, s.resetHeld = false ∧ f s = .error r ∧ takeCommand f s = .next (s.refuse r).finishCommand) ∨
      ∃ t v, s.resetHeld = false ∧ f s = .ok (t, v) ∧ takeCommand f s = .next (t.accept v).finishCommand := by
  cases h : s.resetHeld
  · right
    cases hf : f s with
    | error r => exact .inl ⟨r, rfl, rfl, takeCommand_error s f r h hf⟩
    | ok p => exact .inr ⟨p.1, p.2, rfl, rfl, takeCommand_ok s f p.1 p.2 h hf⟩
  · exact .inl ⟨rfl, takeCommand_held s f h⟩

/-- Everything a LINE_ABORT can do (R44, R45). -/
theorem execLineAbort_cases :
    (s.resetHeld = true ∧ execLineAbort s = .next s) ∨
      (s.resetHeld = false ∧ s.awaitsReply = true ∧ execLineAbort s =
        .next ((if s.lastClose.isSome then s else s.abortExchange).accept 0#6).finishCommandWait) ∨
      (s.resetHeld = false ∧ s.awaitsReply = false ∧ execLineAbort s =
        .next ((if s.lastClose.isSome then s else s.abortExchange).accept 0#6).finishCommand) := by
  cases h : s.resetHeld <;> cases hw : s.awaitsReply <;> simp [execLineAbort, commandEffect, lineAbortCommand, h, hw]

/-! ### A close and the commands that come together with it -/

/-- Every field but the model's note is as the happening's end leaves it. -/
theorem State.finish_frame (t : State) : s.finish t = { t.settle with lastClose := (s.finish t).lastClose } := rfl

/-- The same where the choice alone ends the happening. -/
theorem State.finishWait_frame (t : State) :
    s.finishWait t = { t.callChoice with lastClose := (s.finishWait t).lastClose } := rfl

/-- A command keeps no close. -/
theorem State.finishCommand_frame : s.finishCommand = { s.settle with lastClose := none } := rfl

/-- The same where the choice alone ends it. -/
theorem State.finishCommandWait_frame : s.finishCommandWait = { s.callChoice with lastClose := none } := rfl

/-! The fields of a happening's end. -/

@[simp] theorem State.finish_host (t : State) : (s.finish t).host = t.settle.host := rfl
@[simp] theorem State.finish_command (t : State) : (s.finish t).command = t.settle.command := rfl
@[simp] theorem State.finish_queue (t : State) : (s.finish t).queue = t.settle.queue := rfl
@[simp] theorem State.finish_table (t : State) : (s.finish t).table = t.settle.table := rfl
@[simp] theorem State.finish_arbiter (t : State) : (s.finish t).arbiter = t.settle.arbiter := rfl
@[simp] theorem State.finish_exchange (t : State) : (s.finish t).exchange = t.settle.exchange := rfl
@[simp] theorem State.finish_line (t : State) : (s.finish t).line = t.settle.line := rfl
@[simp] theorem State.finish_store (t : State) : (s.finish t).store = t.settle.store := rfl
@[simp] theorem State.finish_inbound (t : State) : (s.finish t).inbound = t.settle.inbound := rfl
@[simp] theorem State.finish_resetHeld (t : State) : (s.finish t).resetHeld = t.settle.resetHeld := rfl
@[simp] theorem State.finish_readData (t : State) : (s.finish t).readData = t.settle.readData := rfl
@[simp] theorem State.finish_pending (t : State) : (s.finish t).pending = t.settle.pending := rfl
@[simp] theorem State.finishWait_host (t : State) : (s.finishWait t).host = t.callChoice.host := rfl
@[simp] theorem State.finishWait_command (t : State) : (s.finishWait t).command = t.callChoice.command := rfl
@[simp] theorem State.finishWait_queue (t : State) : (s.finishWait t).queue = t.callChoice.queue := rfl
@[simp] theorem State.finishWait_table (t : State) : (s.finishWait t).table = t.callChoice.table := rfl
@[simp] theorem State.finishWait_arbiter (t : State) : (s.finishWait t).arbiter = t.callChoice.arbiter := rfl
@[simp] theorem State.finishWait_exchange (t : State) : (s.finishWait t).exchange = t.callChoice.exchange := rfl
@[simp] theorem State.finishWait_line (t : State) : (s.finishWait t).line = t.callChoice.line := rfl
@[simp] theorem State.finishWait_store (t : State) : (s.finishWait t).store = t.callChoice.store := rfl
@[simp] theorem State.finishWait_inbound (t : State) : (s.finishWait t).inbound = t.callChoice.inbound := rfl
@[simp] theorem State.finishWait_resetHeld (t : State) : (s.finishWait t).resetHeld = t.callChoice.resetHeld := rfl
@[simp] theorem State.finishWait_readData (t : State) : (s.finishWait t).readData = t.callChoice.readData := rfl
@[simp] theorem State.finishWait_pending (t : State) : (s.finishWait t).pending = t.callChoice.pending := rfl
@[simp] theorem State.finishCommand_host : s.finishCommand.host = s.settle.host := rfl
@[simp] theorem State.finishCommand_command : s.finishCommand.command = s.settle.command := rfl
@[simp] theorem State.finishCommand_queue : s.finishCommand.queue = s.settle.queue := rfl
@[simp] theorem State.finishCommand_table : s.finishCommand.table = s.settle.table := rfl
@[simp] theorem State.finishCommand_arbiter : s.finishCommand.arbiter = s.settle.arbiter := rfl
@[simp] theorem State.finishCommand_exchange : s.finishCommand.exchange = s.settle.exchange := rfl
@[simp] theorem State.finishCommand_line : s.finishCommand.line = s.settle.line := rfl
@[simp] theorem State.finishCommand_store : s.finishCommand.store = s.settle.store := rfl
@[simp] theorem State.finishCommand_inbound : s.finishCommand.inbound = s.settle.inbound := rfl
@[simp] theorem State.finishCommand_resetHeld : s.finishCommand.resetHeld = s.settle.resetHeld := rfl
@[simp] theorem State.finishCommand_readData : s.finishCommand.readData = s.settle.readData := rfl
@[simp] theorem State.finishCommand_pending : s.finishCommand.pending = s.settle.pending := rfl
@[simp] theorem State.finishCommand_lastClose : s.finishCommand.lastClose = none := rfl
@[simp] theorem State.finishCommandWait_host : s.finishCommandWait.host = s.callChoice.host := rfl
@[simp] theorem State.finishCommandWait_command : s.finishCommandWait.command = s.callChoice.command := rfl
@[simp] theorem State.finishCommandWait_queue : s.finishCommandWait.queue = s.callChoice.queue := rfl
@[simp] theorem State.finishCommandWait_table : s.finishCommandWait.table = s.callChoice.table := rfl
@[simp] theorem State.finishCommandWait_arbiter : s.finishCommandWait.arbiter = s.callChoice.arbiter := rfl
@[simp] theorem State.finishCommandWait_exchange : s.finishCommandWait.exchange = s.callChoice.exchange := rfl
@[simp] theorem State.finishCommandWait_line : s.finishCommandWait.line = s.callChoice.line := rfl
@[simp] theorem State.finishCommandWait_store : s.finishCommandWait.store = s.callChoice.store := rfl
@[simp] theorem State.finishCommandWait_inbound : s.finishCommandWait.inbound = s.callChoice.inbound := rfl
@[simp] theorem State.finishCommandWait_resetHeld : s.finishCommandWait.resetHeld = s.callChoice.resetHeld := rfl
@[simp] theorem State.finishCommandWait_readData : s.finishCommandWait.readData = s.callChoice.readData := rfl
@[simp] theorem State.finishCommandWait_pending : s.finishCommandWait.pending = s.callChoice.pending := rfl
@[simp] theorem State.finishCommandWait_lastClose : s.finishCommandWait.lastClose = none := rfl

/-- The head of a station's list leaves it exactly where it was there before and is not after (R4). -/
theorem State.headLeaves_iff (t : State) (p : Place) :
    s.headLeaves t p = true ↔
      ∃ e, p = .station e ∧ ∃ head ∈ (s.entry e).pendingList.head?, head ∉ (t.entry e).pendingList := by
  cases p with
  | broadcast => simp [State.headLeaves]
  | station e => cases h : (s.entry e).pendingList <;> simp [State.headLeaves, h]

/-- A close is kept exactly where the happening closed an exchange and its choice granted. -/
theorem closeOf_cases (t u : State) :
    (∃ x ∈ s.exchange, t.exchange = none ∧ u.exchange ≠ none ∧
        closeOf s t u = some ⟨x.place, s.headLeaves t x.place, t.endFinishedRound.arbiter.turn⟩) ∨
      ((s.exchange = none ∨ t.exchange ≠ none ∨ u.exchange = none) ∧ closeOf s t u = none) := by
  unfold closeOf
  cases s.exchange <;> cases t.exchange <;> cases u.exchange <;> simp

/-- What a grant taken back leaves, in the terms of the statements (R6, R31). -/
theorem State.closePending_takenBack (c : Close) (x : Exchange) :
    GrantTakenBack s { s.closePending x with arbiter := s.arbiter.atTurn c.turn } c x := by
  have h := s.closePending_eq x
  refine ⟨?_, h.2⟩
  conv_lhs => rw [h.1]
  rfl

/-- What a DETACH of the station finds (R6). -/
theorem State.takeBack_cases (e : EntryId) :
    (∃ c x, GrantedAgain s e c x ∧
        s.takeBack e = { s.closePending x with arbiter := s.arbiter.atTurn c.turn }) ∨
      ((∀ c x, ¬ GrantedAgain s e c x) ∧ s.takeBack e = s) := by
  unfold State.takeBack GrantedAgain
  cases hc : s.lastClose with
  | none => simp
  | some c =>
    cases hx : s.exchange with
    | none => simp
    | some x =>
      by_cases h : c.place = .station e ∧ x.place = .station e ∧ x.phase = .guard
      · exact .inl ⟨c, x, ⟨rfl, rfl, h⟩, if_pos h⟩
      · refine .inr ⟨?_, if_neg h⟩
        rintro _ _ ⟨⟨⟩, ⟨⟩, h'⟩
        exact h h'

/-- What a FLUSH of the station finds (R6, R57). -/
theorem State.beforeFlush_cases (e : EntryId) :
    (∃ c x, GrantedAgain s e c x ∧ FlushMisses c x ∧
        s.beforeFlush e = { s.closePending x with arbiter := s.arbiter.atTurn c.turn }) ∨
      ((∀ c x, GrantedAgain s e c x → ¬ FlushMisses c x) ∧ s.beforeFlush e = s) := by
  have hk : ∀ c x, GrantedAgain s e c x →
      (FlushMisses c x ↔ (s.lastClose.any Close.headLeft && s.engagedCommand.isSome) = true) := by
    rintro c x ⟨hc, hx, -⟩
    cases hk : x.kind <;> cases hs : x.slot <;> simp [FlushMisses, State.engagedCommand, hc, hx, hk, hs]
  unfold State.beforeFlush
  rcases s.takeBack_cases e with ⟨c, x, hg, ht⟩ | ⟨hn, ht⟩
  · split
    · exact .inl ⟨c, x, hg, (hk c x hg).mpr ‹_›, ht⟩
    · exact .inr ⟨fun c x hg' hm => ‹¬ _› ((hk c x hg').mp hm), rfl⟩
  · exact .inr ⟨fun c x hg => absurd hg (hn c x), by split <;> [exact ht; rfl]⟩

/-! ### Grants -/

/-- What a grant does: the exchange is set at its start, and a QUEUED record it serves moves to SENDING (R24). -/
theorem State.grant_cases (kind : ExchangeKind) (place : Place) (slot : Option SlotId) :
    (∃ i x h, slot = some i ∧ s.slot i = some x ∧ x.handle = some h ∧ (s.record h).state = .queued ∧
        s.grant kind place slot = (s.moveRecord h .sending).setExchange (some
          { kind := kind, place := place, slot := slot, attempt := 1#8, phase := .guard, decision := none
            outcome := none, header := none, firstPayload := none })) ∨
      ((∀ i x h, slot = some i → s.slot i = some x → x.handle = some h → (s.record h).state ≠ .queued) ∧
        s.grant kind place slot = s.setExchange (some
          { kind := kind, place := place, slot := slot, attempt := 1#8, phase := .guard, decision := none
            outcome := none, header := none, firstPayload := none })) := by
  cases slot with
  | none => exact .inr ⟨by simp, by simp [State.grant]⟩
  | some i =>
    cases hx : s.slot i with
    | none => exact .inr ⟨by rintro j y g ⟨⟩ hy _; simp [hx] at hy, by simp [State.grant, hx]⟩
    | some x =>
      cases hh : x.handle with
      | none => exact .inr ⟨by rintro j y g ⟨⟩ hy hg; simp_all, by simp [State.grant, hx, hh]⟩
      | some h =>
        by_cases hq : (s.record h).state = .queued
        · exact .inl ⟨i, x, h, rfl, hx, hh, hq, by simp [State.grant, hx, hh, hq]⟩
        · exact .inr ⟨by rintro j y g ⟨⟩ hy hg; simp_all, by simp [State.grant, hx, hh, hq]⟩

/-- The exchange a grant sets. -/
@[simp] theorem State.grant_exchange (kind : ExchangeKind) (place : Place) (slot : Option SlotId) :
    (s.grant kind place slot).exchange = some
      { kind := kind, place := place, slot := slot, attempt := 1#8, phase := .guard, decision := none
        outcome := none, header := none, firstPayload := none } := by
  rcases s.grant_cases kind place slot with ⟨i, x, h, -, -, -, -, e⟩ | ⟨-, e⟩ <;> rw [e] <;> rfl

/-- A grant leaves everything but the exchange and the record served. -/
theorem State.grant_frame (kind : ExchangeKind) (place : Place) (slot : Option SlotId) :
    s.grant kind place slot = { s with
      exchange := (s.grant kind place slot).exchange
      store := { s.store with descriptors := (s.grant kind place slot).store.descriptors } } := by
  rcases s.grant_cases kind place slot with ⟨i, x, h, -, -, -, -, e⟩ | ⟨-, e⟩ <;> rw [e] <;> rfl

/-! ### The choice -/

/-- Everything the choice can do, case by case in R65's order. -/
theorem State.makeGrant_cases :
    (∃ i, s.probePick = some i ∧ s.makeGrant = s.grant .probe (.station i) none) ∨
      (s.probePick = none ∧
        ((∃ k, s.commandPick = some k ∧ (∀ i, s.roundPick = some i → s.arbiter.alternation = .round) ∧
            s.makeGrant = s.grantCommand k) ∨
          (∃ i, s.roundPick = some i ∧ (∀ k, s.commandPick = some k → s.arbiter.alternation = .command) ∧
            s.makeGrant = s.grantRound i) ∨
          (s.commandPick = none ∧ s.roundPick = none ∧ s.makeGrant = s))) := by
  unfold State.makeGrant
  cases hp : s.probePick with
  | some i => exact .inl ⟨i, rfl, rfl⟩
  | none =>
    right
    cases hc : s.commandPick with
    | none =>
      cases hr : s.roundPick with
      | none => simp
      | some i => simp
    | some k =>
      cases hr : s.roundPick with
      | none => simp
      | some i => cases ha : s.arbiter.alternation <;> simp

/-- A choice is made exactly when the Exchange Controller is IDLE and RUN is 1 (R64). -/
theorem State.callChoice_cases :
    (s.exchange = none ∧ s.host.run = true ∧ s.callChoice = s.endFinishedRound.makeGrant) ∨
      ((s.exchange ≠ none ∨ s.host.run = false) ∧ s.callChoice = s) := by
  unfold State.callChoice State.choice
  cases hx : s.exchange with
  | none => cases hr : s.host.run <;> simp
  | some x => simp

/-! ### The report of a quiet line -/

/-- A quiet line is reported only to GUARD and ANSWER_GUARD (R97). -/
theorem State.reportQuiet_cases :
    (∃ x, s.lineQuiet = true ∧ s.exchange = some x ∧ x.phase = .guard ∧ s.reportQuiet = s.enterTransmit x) ∨
      (∃ x, s.lineQuiet = true ∧ s.exchange = some x ∧ x.phase = .answerGuard ∧
        s.reportQuiet = s.enterAnswer x) ∨
      ((∀ x, s.lineQuiet = true → s.exchange = some x → x.phase ≠ .guard ∧ x.phase ≠ .answerGuard) ∧
        s.reportQuiet = s) := by
  unfold State.reportQuiet
  cases hq : s.lineQuiet with
  | false => simp
  | true =>
    cases hx : s.exchange with
    | none => simp
    | some x => cases hp : x.phase <;> simp [hp]

end Sys2Proof.Machine
end

