-- ==== Sys2Proof/Laws/Lookups.lean ====
section
/-! SUPPORT. What the searches of the model find, said once: the lowest index that satisfies a condition, or none; and
what a command's address and handle name (R3, R12, R66, R69, R73, R122, R156). -/

namespace Sys2Proof.Machine

/-! ### The lowest index -/

/-- A search of all indices from 0 upward finds the lowest that satisfies the condition. -/
theorem find_finRange_some {n : Nat} (p : Fin n → Bool) (i : Fin n) :
    (List.finRange n).find? p = some i ↔ p i = true ∧ ∀ j : Fin n, j.val < i.val → p j = false := by
  rw [List.find?_eq_some_iff_getElem]
  constructor
  · rintro ⟨hp, k, hk, hki, hlow⟩
    have hv : k = i.val := by rw [← hki]; simp
    refine ⟨hp, fun j hj => ?_⟩
    have := hlow j.val (by omega)
    simpa using this
  · rintro ⟨hp, hlow⟩
    refine ⟨hp, i.val, by simp, by simp, fun j hj => ?_⟩
    have hjn : j < n := by omega
    have := hlow ⟨j, hjn⟩ hj
    simpa using this

/-- A search of all indices finds none exactly when none satisfies the condition. -/
theorem find_finRange_none {n : Nat} (p : Fin n → Bool) :
    (List.finRange n).find? p = none ↔ ∀ i, p i = false := by
  simp [List.find?_eq_none]

variable (s : State)

/-- The lowest free slot (R156). -/
theorem State.lowestFreeSlot_some (i : SlotId) :
    s.lowestFreeSlot = some i ↔ s.slot i = none ∧ ∀ j : SlotId, j.val < i.val → s.slot j ≠ none := by
  rw [State.lowestFreeSlot, find_finRange_some]
  simp [Option.isSome_iff_ne_none]

/-- The lowest FREE handle (R122). -/
theorem State.lowestFreeHandle_some (h : Handle) :
    s.lowestFreeHandle = some h ↔
      (s.record h).state = .free ∧ ∀ g : Handle, g.val < h.val → (s.record g).state ≠ .free := by
  rw [State.lowestFreeHandle, find_finRange_some]
  simp

theorem State.lowestFreeHandle_none :
    s.lowestFreeHandle = none ↔ ∀ h, (s.record h).state ≠ .free := by
  rw [State.lowestFreeHandle, find_finRange_none]
  simp

/-- The lowest VACANT entry (R12). -/
theorem State.lowestVacant_some (i : EntryId) :
    s.lowestVacant = some i ↔
      (s.entry i).state = .vacant ∧ ∀ j : EntryId, j.val < i.val → (s.entry j).state ≠ .vacant := by
  rw [State.lowestVacant, find_finRange_some]
  simp

theorem State.lowestVacant_none : s.lowestVacant = none ↔ ∀ i, (s.entry i).state ≠ .vacant := by
  rw [State.lowestVacant, find_finRange_none]
  simp

/-- No entry but a VACANT one holds the address (R3). -/
theorem State.entryHolding_none (a : Byte) :
    s.entryHolding a = none ↔ ∀ e, (s.entry e).state = .vacant ∨ (s.entry e).address ≠ some a := by
  rw [State.entryHolding, find_finRange_none]
  refine forall_congr' fun e => ?_
  cases h : (s.entry e).state <;> simp

/-- The entry found holds the address and is not VACANT (R3). -/
theorem State.entryHolding_some (a : Byte) (e : EntryId) (h : s.entryHolding a = some e) :
    (s.entry e).state ≠ .vacant ∧ (s.entry e).address = some a := by
  rw [State.entryHolding, find_finRange_some] at h
  simpa using h.1

/-- The probe due with the lowest index (R66). -/
theorem State.probePick_none : s.probePick = none ↔ ∀ i, s.probeDue i = false := by
  rw [State.probePick, find_finRange_none]

theorem State.probePick_some (i : EntryId) :
    s.probePick = some i ↔ s.probeDue i = true ∧ ∀ j : EntryId, j.val < i.val → s.probeDue j = false := by
  rw [State.probePick, find_finRange_some]

/-- The next station a round visits (R73). -/
theorem State.nextVisit_some (i : EntryId) :
    s.nextVisit = some i ↔ (s.arbiter.roundPosition.val ≤ i.val ∧ s.visitable i = true) ∧
      ∀ j : EntryId, j.val < i.val → s.arbiter.roundPosition.val ≤ j.val → s.visitable j = false := by
  rw [State.nextVisit, find_finRange_some]
  simp

theorem State.nextVisit_none :
    s.nextVisit = none ↔ ∀ i : EntryId, s.arbiter.roundPosition.val ≤ i.val → s.visitable i = false := by
  rw [State.nextVisit, find_finRange_none]
  simp

/-- The walk from the pointer finds the nearest eligible place (R69). -/
theorem State.commandPick_some (k : Fin 17) :
    s.commandPick = some k ↔ ∃ d : Fin 17, k = s.arbiter.pointer + d ∧ s.placeEligible k = true ∧
      ∀ e : Fin 17, e.val < d.val → s.placeEligible (s.arbiter.pointer + e) = false := by
  have hmap : s.commandPick =
      ((List.finRange 17).find? fun d => s.placeEligible (s.arbiter.pointer + d)).map (s.arbiter.pointer + ·) := by
    rw [State.commandPick, walkFrom, List.find?_map]; rfl
  rw [hmap, Option.map_eq_some_iff]
  constructor
  · rintro ⟨d, hd, rfl⟩
    obtain ⟨hp, hlow⟩ := (find_finRange_some _ _).mp hd
    exact ⟨d, rfl, hp, hlow⟩
  · rintro ⟨d, rfl, hp, hlow⟩
    exact ⟨d, (find_finRange_some _ _).mpr ⟨hp, hlow⟩, rfl⟩

/-- The walk finds none exactly when no place is eligible. -/
theorem State.commandPick_none : s.commandPick = none ↔ ∀ k, s.placeEligible k = false := by
  rw [State.commandPick, walkFrom, List.find?_map, Option.map_eq_none_iff, find_finRange_none]
  constructor
  · intro h k
    have := h (k - s.arbiter.pointer)
    simpa [Function.comp] using this
  · intro h d
    exact h _

/-! ### Places -/

/-- The walk's number of an entry's place. -/
theorem placeOfIndex_station (k : Fin 17) (i : EntryId) : placeOfIndex k = .station i ↔ k.val = i.val := by
  unfold placeOfIndex
  split
  · simp [Fin.ext_iff]
  · rename_i h
    have := i.isLt
    simp; omega

/-- The walk's number of the broadcast list. -/
theorem placeOfIndex_broadcast (k : Fin 17) : placeOfIndex k = .broadcast ↔ k = 16 := by
  unfold placeOfIndex
  split
  · rename_i h
    simp [Fin.ext_iff]; omega
  · rename_i h
    have := k.isLt
    simp [Fin.ext_iff]; omega

/-! ### What a command names -/

/-- The handle a byte names. -/
theorem handleOfByte_some (b : Byte) (h : Handle) : handleOfByte b = some h ↔ h.val = b.toNat := by
  unfold handleOfByte
  split
  · simp [Fin.ext_iff, eq_comm]
  · rename_i hb
    have := h.isLt
    simp; omega

theorem handleOfByte_none (b : Byte) : handleOfByte b = none ↔ 63 < b.toNat := by
  unfold handleOfByte
  split <;> simp <;> omega

/-- The entry a byte names. -/
theorem entryOfByte_some (b : Byte) (e : EntryId) : entryOfByte b = some e ↔ e.val = b.toNat := by
  unfold entryOfByte
  split
  · simp [Fin.ext_iff, eq_comm]
  · rename_i hb
    have := e.isLt
    simp; omega

theorem entryOfByte_none (b : Byte) : entryOfByte b = none ↔ 15 < b.toNat := by
  unfold entryOfByte
  split <;> simp <;> omega

theorem addressInRange_iff (a : Byte) : addressInRange a = true ↔ 1 ≤ a.toNat ∧ a.toNat ≤ 62 := by
  simp [addressInRange]

/-- What the address checks of a command answer (R3). -/
theorem State.namedEntry_cases :
    ((s.paramAddress.toNat = 0 ∨ 63 ≤ s.paramAddress.toNat) ∧ s.namedEntry = .error .badAddress) ∨
      (1 ≤ s.paramAddress.toNat ∧ s.paramAddress.toNat ≤ 62 ∧
        ((s.entryHolding s.paramAddress = none ∧ s.namedEntry = .error .noStation) ∨
          ∃ e, s.entryHolding s.paramAddress = some e ∧ s.namedEntry = .ok e)) := by
  unfold State.namedEntry
  by_cases h : addressInRange s.paramAddress = true
  · obtain ⟨h1, h2⟩ := (addressInRange_iff _).mp h
    refine .inr ⟨h1, h2, ?_⟩
    rw [if_pos h]
    cases s.entryHolding s.paramAddress <;> simp
  · refine .inl ⟨?_, by rw [if_neg h]⟩
    have := mt (addressInRange_iff _).mpr h
    omega

/-- The commitment count leaves a slot free while it is below 32 (R159). -/
theorem State.exists_free_slot (h : s.commitment < 32) : ∃ i, s.lowestFreeSlot = some i := by
  by_contra hno
  have hnone : ∀ i, s.slot i ≠ none := by
    have h0 : s.lowestFreeSlot = none := by
      cases hl : s.lowestFreeSlot with
      | none => rfl
      | some i => exact absurd ⟨i, hl⟩ hno
    rw [State.lowestFreeSlot, find_finRange_none] at h0
    simpa [Option.isSome_iff_ne_none] using h0
  have hall : s.slotsInUse = s.command.slots.toList.length := by
    unfold State.slotsInUse
    rw [List.countP_eq_length]
    intro x hx
    obtain ⟨i, hi, rfl⟩ := List.getElem_of_mem hx
    have := hnone ⟨i, by simpa using hi⟩
    simp only [State.slot] at this
    simpa [Option.isSome_iff_ne_none] using this
  have : s.command.slots.toList.length = 32 := by simp
  unfold State.commitment at h
  omega

end Sys2Proof.Machine
end

