-- ==== Sys2Proof/Laws/Choice.lean ====
section
/-! SUPPORT. The arbiter's tests in the words of the statements (R66 to R68, R73), and what the end of a finished round
and the settling of a happening leave alone. -/

namespace Sys2Proof.Machine

open Sys2Proof.Safety

variable (s : State)

theorem eq_false_iff_not {a : Bool} {p : Prop} (h : a = true ↔ p) : a = false ↔ ¬ p := by
  rw [← h]
  simp

theorem State.probeDue_iff (i : EntryId) : s.probeDue i = true ↔ ProbeDue s i := by
  simp [State.probeDue, ProbeDue, BeatTimer.running]

theorem State.visitable_iff (i : EntryId) : s.visitable i = true ↔ Visitable s i := by
  simp [State.visitable, Visitable, BeatTimer.running]
  tauto

theorem State.startable_iff (i : SlotId) : s.startable i = true ↔ Startable s i := by
  unfold State.startable Startable
  cases hx : s.slot i with
  | none => simp
  | some x => cases hk : x.kind <;> simp [hk, State.storeOpen]

theorem State.eligible_iff (i : EntryId) : s.eligible i = true ↔ Eligible s i := by
  unfold State.eligible Eligible
  cases hx : (s.entry i).pendingList with
  | nil => simp
  | cons a l =>
    simp [State.startable_iff, BeatTimer.running, and_assoc]

theorem State.placeEligible_iff (k : Fin 17) : s.placeEligible k = true ↔ PlaceReady s k := by
  unfold State.placeEligible PlaceReady
  cases hp : placeOfIndex k with
  | station i =>
    have hk := (placeOfIndex_station k i).mp hp
    simp only [State.eligible_iff]
    constructor
    · intro h
      exact .inl ⟨i, hk.symm, h⟩
    · rintro (⟨j, hj, h⟩ | ⟨h, _⟩)
      · have : j = i := Fin.ext (by omega)
        exact this ▸ h
      · subst h
        have := i.isLt
        simp at *
        omega
  | broadcast =>
    have := (placeOfIndex_broadcast k).mp hp
    subst this
    constructor
    · exact fun h => .inr ⟨rfl, by simpa using h⟩
    · rintro (⟨i, hi, _⟩ | ⟨_, h⟩)
      · have := i.isLt
        have h16 : ((16 : Fin 17) : Nat) = 16 := rfl
        omega
      · simpa using h

theorem State.roundPick_none_iff : s.roundPick = none ↔ ¬ RoundReady s := by
  unfold State.roundPick RoundReady
  cases hr : s.arbiter.roundInProgress <;> simp [State.storeOpen]
  cases ho : s.store.restraint <;> simp
  rw [s.nextVisit_none]
  constructor
  · intro h i hi
    have := (eq_false_iff_not (s.visitable_iff i)).mp (h i hi)
    simpa [Visitable] using this
  · intro h i hi
    exact (eq_false_iff_not (s.visitable_iff i)).mpr (by simpa [Visitable] using h i hi)

/-- The end of a finished round writes only the arbiter, and of it neither the pointer, the flag nor the period. -/
theorem State.endFinishedRound_frame :
    s.endFinishedRound = { s with arbiter := s.endFinishedRound.arbiter } ∧
      s.endFinishedRound.arbiter.pointer = s.arbiter.pointer ∧
      s.endFinishedRound.arbiter.alternation = s.arbiter.alternation ∧
      s.endFinishedRound.arbiter.pollPeriod = s.arbiter.pollPeriod := by
  unfold State.endFinishedRound
  split <;> exact ⟨rfl, rfl, rfl, rfl⟩

/-- A round that ends had no entry to visit, so the end changes no choice. -/
theorem State.roundPick_endFinishedRound : s.endFinishedRound.roundPick = s.roundPick := by
  unfold State.endFinishedRound
  split
  · rename_i h
    simp [State.roundOver] at h
    simp [State.roundPick, Arbiter.endRound, h]
  · rfl

/-- With an exchange in flight a happening ends with the report of a quiet line alone. -/
theorem State.settle_of_exchange (x : Exchange) (h : s.exchange = some x) : s.settle = s.reportQuiet := by
  simp [State.settle, State.callChoice, h]

/-- With no exchange and RUN 0 a happening ends with nothing. -/
theorem State.settle_of_stopped (hx : s.exchange = none) (h : s.host.run = false) : s.settle = s := by
  simp [State.settle, State.callChoice, hx, h, State.reportQuiet]

end Sys2Proof.Machine
end

