-- ==== Sys2Proof/Laws/Commands.lean ====
section
/-! SUPPORT. How a statement about one command is proved: from the command's effect to the terms the statements are
made in, and what the checks on addresses, slots and records find. -/

namespace Sys2Proof.Machine

open Sys2Proof.Safety

variable {s t : State} {c : Instr}

/-- A command whose checks accept is accepted. -/
theorem accepts_of_ok {v : BitVec 6} (f : State → Except Reason (State × BitVec 6)) (h : s.resetHeld = false)
    (he : exec c s = takeCommand f s) (hf : f s = .ok (t, v)) : Accepts c s t v := by
  rw [Accepts, he, takeCommand_ok s f t v h hf]
  rfl

/-- A command whose checks refuse is refused. -/
theorem refuses_of_error {r : Reason} (f : State → Except Reason (State × BitVec 6)) (h : s.resetHeld = false)
    (he : exec c s = takeCommand f s) (hf : f s = .error r) : Refuses c s r := by
  rw [Refuses, he, takeCommand_error s f r h hf]
  rfl

/-- A happening has its effect. -/
theorem happens_of_effect (f : State → State) (h : s.resetHeld = false) (he : exec c s = happening f s)
    (hf : f s = t) : Happens c s t := by
  rw [Happens, he, happening_next s f h, hf]

/-- An address outside 1 to 62 names no entry (R3). -/
theorem State.namedEntry_badAddress (h : (lowByte (s.param 0)).toNat = 0 ∨ 63 ≤ (lowByte (s.param 0)).toNat) :
    s.namedEntry = .error .badAddress := by
  rcases s.namedEntry_cases with ⟨_, h'⟩ | ⟨h1, h2, _⟩
  · exact h'
  · simp only [State.paramAddress] at h1 h2
    omega

/-- An address that no entry but a VACANT one holds names no station (R3). -/
theorem State.namedEntry_noStation (h1 : 1 ≤ (lowByte (s.param 0)).toNat) (h2 : (lowByte (s.param 0)).toNat ≤ 62)
    (h : ∀ e, (s.entry e).state = .vacant ∨ (s.entry e).address ≠ some (lowByte (s.param 0))) :
    s.namedEntry = .error .noStation := by
  have h0 := (s.entryHolding_none _).mpr h
  rcases s.namedEntry_cases with ⟨h', _⟩ | ⟨_, _, ⟨_, h'⟩ | ⟨e, he, _⟩⟩
  · simp only [State.paramAddress] at h'
    omega
  · exact h'
  · rw [State.paramAddress, h0] at he
    cases he

/-- Below 32 commitments there is a lowest free slot (R159). -/
theorem State.exists_lowest_slot (h : s.commitment < 32) :
    ∃ i, s.lowestFreeSlot = some i ∧ s.slot i = none ∧ ∀ j : SlotId, j.val < i.val → s.slot j ≠ none := by
  obtain ⟨i, hi⟩ := s.exists_free_slot h
  exact ⟨i, hi, (s.lowestFreeSlot_some i).mp hi⟩

/-- A READY record named by PARAM2 is the one a SEND or BROADCAST takes (R127). -/
theorem State.readyRecordNamed_ok {h : Handle} (hn : (lowByte (s.param 2)).toNat = h.val)
    (hr : (s.record h).state = .ready) : s.readyRecordNamed = .ok h := by
  have : handleOfByte s.paramHandle = some h := (handleOfByte_some _ _).mpr hn.symm
  simp [State.readyRecordNamed, State.judgeRecord, this, hr]

end Sys2Proof.Machine
end

