-- ==== Sys2Proof/Laws/Memory.lean ====
section
/-! SUPPORT. The laws of the Record Store's bytes: what is read after a write, and that every operation on them
keeps the canonical form. -/

namespace Sys2Proof.Machine

/-! ### Reading -/

@[simp] theorem readByte_nil (a : Nat) : readByte [] a = Config.unwrittenByte := rfl

/-- A byte below every listed address is unwritten. -/
theorem readByte_eq_unwritten (m : List Host.Cell) (a : Nat) (h : ∀ c ∈ m, c.1 ≠ a) :
    readByte m a = Config.unwrittenByte := by
  induction m with
  | nil => rfl
  | cons c rest ih =>
    have hc : c.1 ≠ a := h c (by simp)
    simp only [readByte, if_neg hc]
    exact ih fun d hd => h d (by simp [hd])

/-- Reading after a write: the byte written at its address, and every other byte as it was. -/
theorem readByte_writeByte (m : List Host.Cell) (a b : Nat) (v : Byte)
    (hm : (m.map Prod.fst).Pairwise (· < ·)) :
    readByte (writeByte m a v) b = if b = a then v else readByte m b := by
  induction m with
  | nil =>
    by_cases hv : v = Config.unwrittenByte
    · simp [writeByte, hv]
    · by_cases hb : b = a
      · simp [writeByte, hv, readByte, hb]
      · simp [writeByte, hv, readByte, hb, Ne.symm hb]
  | cons c rest ih =>
    simp only [List.map_cons, List.pairwise_cons] at hm
    obtain ⟨hlow, hrest⟩ := hm
    have above : ∀ d ∈ rest, c.1 < d.1 := fun d hd => hlow d.1 (List.mem_map_of_mem hd)
    by_cases h1 : c.1 < a
    · simp only [writeByte, if_pos h1, readByte]
      by_cases hb : c.1 = b
      · have : b ≠ a := by omega
        simp [hb, this]
      · simp [hb, ih hrest]
    · by_cases h2 : c.1 = a
      · by_cases hv : v = Config.unwrittenByte
        · simp only [writeByte, if_neg h1, if_pos h2, if_pos hv, readByte]
          by_cases hb : b = a
          · rw [if_pos hb, hv]
            exact readByte_eq_unwritten rest b fun d hd => by have := above d hd; omega
          · have : c.1 ≠ b := by omega
            simp [hb, this]
        · simp only [writeByte, if_neg h1, if_pos h2, if_neg hv, readByte]
          by_cases hb : b = a
          · simp [hb]
          · have : c.1 ≠ b := by omega
            simp [hb, Ne.symm hb, this]
      · by_cases hv : v = Config.unwrittenByte
        · simp only [writeByte, if_neg h1, if_neg h2, if_pos hv]
          by_cases hb : b = a
          · rw [if_pos hb, hv]
            refine readByte_eq_unwritten _ b fun d hd => ?_
            rcases List.mem_cons.mp hd with rfl | hd
            · omega
            · have := above d hd; omega
          · rw [if_neg hb]
        · simp only [writeByte, if_neg h1, if_neg h2, if_neg hv]
          by_cases hb : b = a
          · simp [hb, readByte]
          · simp [hb, Ne.symm hb, readByte]

/-- Reading after blocks are zeroed: 0 in a block of theirs, and every other byte as it was. -/
theorem readByte_zeroBlocks (m : List Host.Cell) (blocks : List Block) (a : Nat) :
    readByte (zeroBlocks m blocks) a =
      if a / Config.blockBytes ∈ blocks.map Fin.val then Config.unwrittenByte else readByte m a := by
  induction m with
  | nil => simp [zeroBlocks]
  | cons c rest ih =>
    simp only [zeroBlocks] at ih ⊢
    by_cases hc : c.1 / Config.blockBytes ∈ blocks.map Fin.val
    · rw [List.filter_cons_of_neg (by simpa using hc), ih]
      by_cases ha : a / Config.blockBytes ∈ blocks.map Fin.val
      · simp only [if_pos ha]
      · have : c.1 ≠ a := fun h => ha (h ▸ hc)
        simp only [if_neg ha, readByte, if_neg this]
    · rw [List.filter_cons_of_pos (by simpa using hc)]
      simp only [readByte, ih]
      by_cases ha : c.1 = a
      · subst ha; simp only [if_pos trivial, if_neg hc]
      · simp only [if_neg ha]

/-! ### The canonical form -/

/-- The addresses a write leaves listed: those listed before, and the one written. -/
theorem mem_writeByte (m : List Host.Cell) (a : Nat) (v : Byte) (c : Host.Cell) (h : c ∈ writeByte m a v) :
    c ∈ m ∨ (c = (a, v) ∧ v ≠ Config.unwrittenByte) := by
  induction m with
  | nil =>
    by_cases hv : v = Config.unwrittenByte
    · simp [writeByte, hv] at h
    · simp [writeByte, hv] at h; exact .inr ⟨h, hv⟩
  | cons d rest ih =>
    simp only [writeByte] at h
    split at h
    · rcases List.mem_cons.mp h with h | h
      · exact .inl (by simp [h])
      · rcases ih h with h | h
        · exact .inl (by simp [h])
        · exact .inr h
    · split at h
      · split at h
        · exact .inl (by simp [h])
        · rcases List.mem_cons.mp h with h | h
          · exact .inr ⟨h, ‹_›⟩
          · exact .inl (by simp [h])
      · split at h
        · exact .inl h
        · rcases List.mem_cons.mp h with h | h
          · exact .inr ⟨h, ‹_›⟩
          · exact .inl h

/-- A write keeps the addresses strictly rising. -/
theorem writeByte_rising (m : List Host.Cell) (a : Nat) (v : Byte)
    (hm : (m.map Prod.fst).Pairwise (· < ·)) : ((writeByte m a v).map Prod.fst).Pairwise (· < ·) := by
  induction m with
  | nil => by_cases hv : v = Config.unwrittenByte <;> simp [writeByte, hv]
  | cons c rest ih =>
    have hm' := hm
    simp only [List.map_cons, List.pairwise_cons] at hm
    obtain ⟨hlow, hrest⟩ := hm
    simp only [writeByte]
    split
    · rename_i h1
      simp only [List.map_cons, List.pairwise_cons]
      refine ⟨fun b hb => ?_, ih hrest⟩
      obtain ⟨d, hd, rfl⟩ := List.mem_map.mp hb
      rcases mem_writeByte rest a v d hd with hd | ⟨rfl, -⟩
      · exact hlow _ (List.mem_map_of_mem hd)
      · exact h1
    · split
      · rename_i h1 h2
        split
        · exact hrest
        · simp only [List.map_cons, List.pairwise_cons]
          exact ⟨fun b hb => h2 ▸ hlow b hb, hrest⟩
      · rename_i h1 h2
        split
        · exact hm'
        · rw [List.map_cons, List.pairwise_cons]
          refine ⟨fun b hb => ?_, hm'⟩
          rcases List.mem_cons.mp hb with rfl | hb
          · show a < c.1; omega
          · have := hlow b hb; show a < b; omega

/-- A write inside the store keeps the canonical form. -/
theorem wf_writeByte (m : List Host.Cell) (a : Nat) (v : Byte) (hm : Memory.wf m)
    (ha : a < Config.blockTotal * Config.blockBytes) : Memory.wf (writeByte m a v) := by
  refine ⟨writeByte_rising m a v hm.1, fun c hc => ?_⟩
  rcases mem_writeByte m a v c hc with hc | ⟨rfl, hv⟩
  · exact hm.2 c hc
  · exact ⟨ha, hv⟩

/-- Zeroing blocks keeps the canonical form. -/
theorem wf_zeroBlocks (m : List Host.Cell) (blocks : List Block) (hm : Memory.wf m) :
    Memory.wf (zeroBlocks m blocks) :=
  ⟨hm.1.sublist (List.filter_sublist.map _), fun c hc => hm.2 c (List.mem_filter.mp hc).1⟩

/-- Every byte address of a block lies inside the store. -/
theorem blockAddress_lt (b : Block) (j : Nat) :
    blockAddress b j < Config.blockTotal * Config.blockBytes := by
  have := b.isLt
  have hj : j % 32 < 32 := Nat.mod_lt _ (by decide)
  simp only [blockAddress, Config.blockTotal, Config.blockBytes]
  omega

/-- Different bytes lie at different addresses (R120). -/
theorem blockAddress_inj (b c : Block) (j k : Nat) :
    blockAddress b j = blockAddress c k ↔ b = c ∧ j % Config.blockBytes = k % Config.blockBytes := by
  simp only [blockAddress, Config.blockBytes, Fin.ext_iff]
  omega

/-- A record's byte address lies inside the store. -/
theorem State.recordAddress_lt (s : State) (h : Handle) (k a : Nat) (ha : s.recordAddress h k = some a) :
    a < Config.blockTotal * Config.blockBytes := by
  simp only [State.recordAddress, Option.map_eq_some_iff] at ha
  obtain ⟨b, -, rfl⟩ := ha
  exact blockAddress_lt b k

/-- Storing a record's byte keeps the canonical form. -/
theorem State.wf_writeRecordByte (s : State) (h : Handle) (k : Nat) (v : Byte) (hm : Memory.wf s.store.bytes) :
    Memory.wf (s.writeRecordByte h k v).store.bytes := by
  simp only [State.writeRecordByte]
  split
  · rename_i a ha
    exact wf_writeByte _ _ _ hm (s.recordAddress_lt h k a ha)
  · exact hm

/-- What storing a record's byte does to every byte of the store. -/
theorem State.readByte_writeRecordByte (s : State) (h : Handle) (k : Nat) (v : Byte) (a : Nat)
    (hm : Memory.wf s.store.bytes) :
    readByte (s.writeRecordByte h k v).store.bytes a =
      if s.recordAddress h k = some a then v else readByte s.store.bytes a := by
  simp only [State.writeRecordByte]
  split
  · rename_i b hb
    simp only [readByte_writeByte _ _ _ _ hm.1, hb, Option.some.injEq, eq_comm]
  · rename_i hb
    simp [hb]

/-- The store's bytes after reset have the canonical form. -/
theorem wf_reset : Memory.wf State.reset.store.bytes := by decide

end Sys2Proof.Machine
end

