-- ==== Sys2Proof/Laws/PerInstr.lean ====
section
/-! SUPPORT. One lemma per command, for the statements over all commands: a well-formed command that is a bus write
is the command its write is (R172). -/

namespace Sys2Proof.Laws.BusWrite

/-- The write a well-formed command is spells that command again. -/
def Statement (i : Instr) : Prop :=
  i.wellFormed = true → ∀ o v, busWriteOf i = some (o, v) → commandOfWrite o v = i

theorem of_eq {i : Instr} {o : BitVec 5} {v : Word} (h : busWriteOf i = some (o, v))
    (hw : i.wellFormed = true → commandOfWrite o v = i) : Statement i := by
  intro hi o' v' h'
  obtain ⟨rfl, rfl⟩ : o = o' ∧ v = v' := by simpa using h.symm.trans h'
  exact hw hi

theorem of_none {i : Instr} (h : busWriteOf i = none) : Statement i := by
  intro _ o v h'
  rw [h] at h'
  cases h'

/-- Every value that names no command is BAD_CODE. -/
theorem commandOfCode_bad (code : Word) (h : namesCommand code = false) :
    commandOfCode code = .badCodeCommand code := by
  have : code.toNat = 0 ∨ 20 < code.toNat := by
    simp only [namesCommand, Bool.and_eq_false_iff, decide_eq_false_iff_not] at h
    omega
  unfold commandOfCode
  split <;> first | rfl | omega

/-- Every offset that is a PARAM register or ignored is OTHER_REGISTER_WRITE. -/
theorem commandOfWrite_other (offset : BitVec 5) (value : Word)
    (h : (isParamOffset offset || isIgnoredOffset offset) = true) :
    commandOfWrite offset value = .otherRegisterWrite offset value := by
  have key : ∀ o : BitVec 5, (isParamOffset o || isIgnoredOffset o) = true →
      o.toNat ∉ [1, 4, 5, 6, 15, 20, 21, 22, 24, 25, 26, 27, 28, 29, 30, 31] := by decide
  have := key offset h
  simp only [List.mem_cons, List.not_mem_nil, or_false, not_or] at this
  unfold commandOfWrite
  split <;> first | rfl | omega

theorem getLsbD_zero_append (w : BitVec 15) (b : BitVec 1) : (w ++ b).getLsbD 0 = b.getLsbD 0 := by
  simp only [BitVec.getLsbD_append]
  rfl

theorem extractLsb'_append (w : BitVec 15) (b : BitVec 1) : (w ++ b).extractLsb' 1 15 = w := by
  ext i hi
  simp only [BitVec.getElem_extractLsb', BitVec.getLsbD_append]
  rw [if_neg (by omega), show 1 + i - 1 = i by omega, BitVec.getLsbD_eq_getElem hi]

theorem send : Statement .send := of_eq rfl fun _ => rfl

theorem poll : Statement .poll := of_eq rfl fun _ => rfl

theorem action : Statement .action := of_eq rfl fun _ => rfl

theorem broadcast : Statement .broadcast := of_eq rfl fun _ => rfl

theorem attach : Statement .attach := of_eq rfl fun _ => rfl

theorem detach : Statement .detach := of_eq rfl fun _ => rfl

theorem pause : Statement .pause := of_eq rfl fun _ => rfl

theorem resume : Statement .resume := of_eq rfl fun _ => rfl

theorem revive : Statement .revive := of_eq rfl fun _ => rfl

theorem flush : Statement .flush := of_eq rfl fun _ => rfl

theorem stationQuery : Statement .stationQuery := of_eq rfl fun _ => rfl

theorem lineQuery : Statement .lineQuery := of_eq rfl fun _ => rfl

theorem clearCounters : Statement .clearCounters := of_eq rfl fun _ => rfl

theorem alloc : Statement .alloc := of_eq rfl fun _ => rfl

theorem sealRecord : Statement .sealRecord := of_eq rfl fun _ => rfl

theorem free : Statement .free := of_eq rfl fun _ => rfl

theorem release : Statement .release := of_eq rfl fun _ => rfl

theorem setMarks : Statement .setMarks := of_eq rfl fun _ => rfl

theorem lineAbort : Statement .lineAbort := of_eq rfl fun _ => rfl

theorem controllerReset : Statement .controllerReset := of_eq rfl fun _ => rfl

theorem badCodeCommand (code : Word) : Statement (.badCodeCommand code) :=
  of_eq rfl fun h => commandOfCode_bad code (by simpa [Instr.wellFormed] using h)

theorem runStart (ignored : BitVec 15) : Statement (.runStart ignored) := of_eq rfl fun _ => by
  show (if (ignored ++ 1#1).getLsbD 0 then _ else _) = _
  simp only [getLsbD_zero_append, extractLsb'_append]
  rfl

theorem runStop (ignored : BitVec 15) : Statement (.runStop ignored) := of_eq rfl fun _ => by
  show (if (ignored ++ 0#1).getLsbD 0 then _ else _) = _
  simp only [getLsbD_zero_append, extractLsb'_append]
  rfl

theorem causeEnableWrite (value : Word) : Statement (.causeEnableWrite value) := of_eq rfl fun _ => rfl

theorem causeAck (value : Word) : Statement (.causeAck value) := of_eq rfl fun _ => rfl

theorem cqInfoWrite (value : Word) : Statement (.cqInfoWrite value) := of_eq rfl fun _ => rfl

theorem winSelectWrite (value : Word) : Statement (.winSelectWrite value) := of_eq rfl fun _ => rfl

theorem winOffsetWrite (value : Word) : Statement (.winOffsetWrite value) := of_eq rfl fun _ => rfl

theorem winDataRead : Statement .winDataRead := of_none rfl

theorem winDataWrite (value : Word) : Statement (.winDataWrite value) := of_eq rfl fun _ => rfl

theorem rateWrite (value : Word) : Statement (.rateWrite value) := of_eq rfl fun _ => rfl

theorem lineTimesWrite (value : Word) : Statement (.lineTimesWrite value) := of_eq rfl fun _ => rfl

theorem replyTimeWrite (value : Word) : Statement (.replyTimeWrite value) := of_eq rfl fun _ => rfl

theorem pollTimeWrite (value : Word) : Statement (.pollTimeWrite value) := of_eq rfl fun _ => rfl

theorem probeSetupWrite (value : Word) : Statement (.probeSetupWrite value) := of_eq rfl fun _ => rfl

theorem backoffWrite (value : Word) : Statement (.backoffWrite value) := of_eq rfl fun _ => rfl

theorem coalesceWrite (value : Word) : Statement (.coalesceWrite value) := of_eq rfl fun _ => rfl

theorem lostSummaryWrite (value : Word) : Statement (.lostSummaryWrite value) := of_eq rfl fun _ => rfl

theorem otherRegisterWrite (offset : BitVec 5) (value : Word) : Statement (.otherRegisterWrite offset value) :=
  of_eq rfl fun h => commandOfWrite_other offset value h

theorem hardwareReset : Statement .hardwareReset := of_none rfl

theorem resetRelease : Statement .resetRelease := of_none rfl

theorem characterReceived (value : Byte) (parity stop : Bool) : Statement (.characterReceived value parity stop) := of_none rfl

theorem inputReturnAfterStopError : Statement .inputReturnAfterStopError := of_none rfl

theorem transmitCharacter : Statement .transmitCharacter := of_none rfl

theorem frameSent : Statement .frameSent := of_none rfl

theorem guardTimerExpiry : Statement .guardTimerExpiry := of_none rfl

theorem replyTimerExpiry : Statement .replyTimerExpiry := of_none rfl

theorem gapTimerExpiry : Statement .gapTimerExpiry := of_none rfl

theorem echoDeadline : Statement .echoDeadline := of_none rfl

theorem drainEnd : Statement .drainEnd := of_none rfl

theorem pollPeriodExpiry : Statement .pollPeriodExpiry := of_none rfl

theorem backoffExpiry (entry : EntryId) : Statement (.backoffExpiry entry) := of_none rfl

theorem probeTimerExpiry (entry : EntryId) : Statement (.probeTimerExpiry entry) := of_none rfl

theorem lingerExpiry : Statement .lingerExpiry := of_none rfl

end Sys2Proof.Laws.BusWrite
end

