-- ==== Sys2Proof/Tests/Slice0.lean ====
section
/-! SUPPORT. The model's own tests: ill-formed terms are refused, the manual's worked examples taken one step at a
time, and for every statement with hypotheses a state and operands that meet them, at the ends of their ranges. -/

namespace Sys2Proof.Tests

open Sys2Proof Sys2Proof.Machine Sys2Proof.Safety

-- One test after another: side by side, the evaluations reserve more memory than the check allows.
set_option Elab.async false

/-! ### The states the tests start from -/

/-- A READY station with a pending list. -/
def ready (a : Byte) (l : List SlotId) : Entry :=
  { Entry.vacant with state := .ready, address := some a, failLimit := 3#4, inboundLimit := 480, pendingList := l }

/-- A record with its chain. -/
def held (r : RecordState) (n : Nat) (chain : List Block) : Descriptor :=
  { state := r, length := n, chain := chain, origin := 0#8, keep := false }

/-- A command slot in use. -/
def slotOf (k : CommandKind) (tag : Word) (a : Byte) (p : Place) (h : Option Handle) : Slot :=
  { kind := k, tag := tag, address := a, place := p, handle := h, keep := false, action := none, attempts := 1#4
    cancelMark := false }

/-- RUN 1; entry 0 READY at address 5 with a SEND of record 2, entry 1 FAILED at address 6, entry 2 WORKING at
address 7 with its open action; a BROADCAST of record 3; record 0 READY, 1 FILLING, 4 INBOUND. -/
def board : State :=
  { State.reset with
    host := { HostWindow.reset with run := true }
    command := { CommandUnit.reset with
      slots := ((CommandUnit.reset.slots.set 0 (some (slotOf .send 0x1111#16 5#8 (.station 0) (some 2)))).set 1
        (some (slotOf .action 0x2222#16 7#8 (.station 2) none))).set 2
        (some (slotOf .broadcast 0x3333#16 63#8 .broadcast (some 3)))
      broadcastList := [2] }
    table := { StationTable.reset with
      entries := ((StationTable.reset.entries.set 0 (ready 5#8 [0])).set 1
        { ready 6#8 [] with state := .failed, consecFail := 3#4 }).set 2
        { ready 7#8 [1] with state := .working, openAction := some 1, probeCount := 2#8 } }
    store := { RecordStore.reset with
      descriptors := ((((RecordStore.reset.descriptors.set 0 (held .ready 4 [0])).set 1
        (held .filling 40 [1, 2])).set 2 (held .queued 4 [3])).set 3 (held .queued 1 [4])).set 4
        { held .inbound 2 [5] with origin := 5#8 }
      freeList := RecordStore.reset.freeList.drop 6 }
    inbound := { arrival := none, list := [4] } }

/-- The state with PARAM0 to PARAM2 given. -/
def called (p q r : Word) (s : State) : State :=
  { s with command := { s.command with params := #v[p, q, r, 0#16, 0#16, 0#16] } }

/-- The board with no WORKING station. -/
def calm : State :=
  { board with table := { board.table with entries := board.table.entries.set 2 (ready 7#8 []) } }

/-- An exchange at a phase. -/
def standing (k : ExchangeKind) (p : Place) (i : Option SlotId) (ph : Phase) : Exchange :=
  { granted k p i with phase := ph }

/-- The state with an exchange in flight. -/
def during (x : Exchange) (s : State) : State := { s with exchange := some x }

/-- The state with the receiver given. -/
def hearing (r : Receiver) (s : State) : State := { s with line := { s.line with rx := r } }

/-- A POLL's completion. -/
def polled : Completion :=
  { tag := 7#16, kind := .poll, address := 5#8, outcome := .empty, attempts := 1#4, detail := 0#8, handle := none
    extent := 0 }

/-- The state with `n` completions waiting. -/
def waiting (n : Nat) (s : State) : State :=
  { s with queue := { s.queue with entries := List.replicate n polled } }

/-- The state with the window's pointer given. -/
def pointing (select : Byte) (offset : Word) (s : State) : State :=
  { s with host := { s.host with winSelect := select, winOffset := offset } }

/-- The next state of a command, and the state itself where there is none. -/
def after (c : Instr) (s : State) : State :=
  match exec c s with
  | .next t => t
  | .fault _ | .refused _ => s

/-- The command has a next state. -/
def completes (c : Instr) (s : State) : Bool :=
  match exec c s with
  | .next _ => true
  | .fault _ | .refused _ => false

theorem exec_after {c : Instr} {s : State} (h : completes c s = true) : exec c s = .next (after c s) := by
  unfold completes at h
  unfold after
  cases hx : exec c s <;> simp_all

/-! ### Ill-formed terms -/

theorem test_wellFormed_badCode :
    (Instr.badCodeCommand 1#16).wellFormed = false ∧ (Instr.badCodeCommand 20#16).wellFormed = false ∧
    (Instr.badCodeCommand 0#16).wellFormed = true ∧ (Instr.badCodeCommand 21#16).wellFormed = true ∧
    (Instr.badCodeCommand 0x0101#16).wellFormed = true := by decide

theorem test_wellFormed_otherRegister :
    (Instr.otherRegisterWrite 1#5 0#16).wellFormed = false ∧
    (Instr.otherRegisterWrite 31#5 0#16).wellFormed = false ∧
    (Instr.otherRegisterWrite 8#5 0#16).wellFormed = true ∧
    (Instr.otherRegisterWrite 13#5 0#16).wellFormed = true ∧
    (Instr.otherRegisterWrite 0#5 0#16).wellFormed = true ∧
    (Instr.otherRegisterWrite 23#5 0#16).wellFormed = true := by decide

theorem test_illFormed_refused :
    exec (.badCodeCommand 20#16) State.reset = .refused .otherRow ∧
    exec (.otherRegisterWrite 6#5 1#16) State.reset = .refused .otherRow := ⟨rfl, rfl⟩

/-! ### The bus: the codes of section 11.3 and the offsets of R172 -/

theorem test_bus_codes :
    commandOfWrite 6#5 0#16 = .badCodeCommand 0#16 ∧ commandOfWrite 6#5 1#16 = .send ∧
    commandOfWrite 6#5 10#16 = .flush ∧ commandOfWrite 6#5 14#16 = .alloc ∧ commandOfWrite 6#5 15#16 = .sealRecord ∧
    commandOfWrite 6#5 20#16 = .controllerReset ∧ commandOfWrite 6#5 21#16 = .badCodeCommand 21#16 ∧
    commandOfWrite 6#5 0xFFFF#16 = .badCodeCommand 0xFFFF#16 := by decide

theorem test_bus_offsets :
    commandOfWrite 1#5 0x0003#16 = .runStart 1#15 ∧ commandOfWrite 1#5 0xFFFE#16 = .runStop 0x7FFF#15 ∧
    commandOfWrite 5#5 5#16 = .causeAck 5#16 ∧ commandOfWrite 22#5 0x1234#16 = .winDataWrite 0x1234#16 ∧
    commandOfWrite 7#5 1#16 = .otherRegisterWrite 7#5 1#16 ∧ commandOfRead 22#5 = some .winDataRead ∧
    commandOfRead 19#5 = none := by decide

/-- The bus pins: CS, RD and WR low or not, an offset and a word. -/
def busAt (cs rd wr : Bool) (o : BitVec 5) (v : Word) : BusPins :=
  { csLow := cs, rdLow := rd, wrLow := wr, offset := o, data := v }

/-- R189: a read at the falling edge of RD, a write at the rising edge of WR, none with both strobes or with CS high. -/
theorem test_bus_strobes :
    busAccess (busAt true false false 22#5 0#16) (busAt true true false 22#5 0#16) = some (.read 22#5) ∧
    busAccess (busAt true false true 4#5 3#16) (busAt true false false 4#5 0#16) = some (.write 4#5 3#16) ∧
    busAccess (busAt true false false 4#5 3#16) (busAt true false true 4#5 3#16) = none ∧
    busAccess (busAt true false true 4#5 3#16) (busAt true false true 4#5 3#16) = none ∧
    busAccess (busAt true true true 4#5 3#16) (busAt true true false 4#5 3#16) = none ∧
    busAccess (busAt true false true 4#5 3#16) (busAt true true false 4#5 3#16) = none ∧
    busAccess (busAt false false false 4#5 0#16) (busAt true true false 4#5 0#16) = some (.read 4#5) ∧
    busAccess (busAt true false true 4#5 3#16) (busAt false false false 4#5 3#16) = some (.write 4#5 3#16) ∧
    busAccess (busAt false false true 4#5 3#16) (busAt false false false 4#5 3#16) = none := by decide

/-- R172, R189: a read drives D15 to D0 with the value at the fall of RD until RD rises, RUN's change in between
notwithstanding, and nothing is driven while RESET is low. -/
theorem test_bus_data :
    State.reset.dataDriven none (busAt true false false 1#5 0#16) (busAt true true false 1#5 0#16) = some 0#16 ∧
    (after (.runStart 0#15) State.reset).dataDriven (some 0#16) (busAt true true false 1#5 0#16)
      (busAt true true false 1#5 0#16) = some 0#16 ∧
    State.reset.dataDriven (some 0#16) (busAt true true false 1#5 0#16) (busAt true false false 1#5 0#16) = none ∧
    ({ State.reset with resetHeld := true } : State).dataDriven (some 7#16) (busAt true true false 0#5 0#16)
      (busAt true true false 0#5 0#16) = none ∧
    (({ State.reset with resetHeld := true } : State).pins (some 7#16)).data = none ∧
    ({ State.reset with resetHeld := true } : State).busCommand (busAt true false true 6#5 1#16)
      (busAt true false false 6#5 1#16) = none ∧
    State.reset.busCommand (busAt true false true 6#5 1#16) (busAt true false false 6#5 1#16) = some .send := by
  decide +kernel

/-! ### The manual's worked examples, one step each -/

/-- Section 10.3.1: the reads at 98, 100 and 102 of a record of length 100, and the write of a READY record. -/
def windowBoard (offset : Word) : State :=
  pointing 0#8 offset { board with store := { board.store with
    descriptors := board.store.descriptors.set 0 (held .ready 100 [0, 1, 2, 3])
    bytes := [(98, 0x62#8), (99, 0x63#8)] } }

theorem test_winDataRead_at_the_end :
    (after .winDataRead (windowBoard 98#16)).readData = 0x6362#16 ∧
    (after .winDataRead (windowBoard 100#16)).readData = 0#16 ∧
    (after .winDataRead (windowBoard 100#16)).host.hostFault = false ∧
    (after .winDataRead (windowBoard 100#16)).host.winOffset = 102#16 := by decide +kernel

theorem test_winData_faults :
    (after .winDataRead (windowBoard 102#16)).host.faultKind = .windowRead ∧
    (after .winDataRead (windowBoard 102#16)).host.winOffset = 104#16 ∧
    (after (.winDataWrite 0x1234#16) (windowBoard 104#16)).host.faultKind = .windowWrite ∧
    (after (.winDataWrite 0x1234#16) (windowBoard 104#16)).store.bytes = [(98, 0x62#8), (99, 0x63#8)] := by
  decide +kernel

/-- Section 5.2.1: the SEND of 0x41, 0xE1 and 0x07 to address 21, and the station's ACK. -/
theorem test_frame_of_a_send :
    frameCharacters [0x15#8, 0x00#8, 0x11#8, 0x41#8, 0xE1#8, 0x07#8] =
      [0xE0#8, 0x15#8, 0x00#8, 0x11#8, 0x41#8, 0xE2#8, 0xEE#8, 0x07#8, 0xA3#8, 0x55#8, 0xE1#8] ∧
    frameCharacters [0x00#8, 0x15#8, 0x13#8] =
      [0xE0#8, 0x00#8, 0x15#8, 0x13#8, 0x06#8, 0x2B#8, 0xE1#8] := by decide +kernel

/-- Section 5.5.1: before 0x2B the held pair is 0x13, 0x06 and 0x15 has been released; the byte releases 0x13. -/
theorem test_decoder_holds_a_pair :
    (after (.characterReceived 0x2B#8 false true)
      (hearing (.frame { openedFrame .stray with
        count := 4, head := [0x00#8, 0x15#8, 0x13#8], older := some 0x13#8, newer := some 0x06#8
        accXor := 0x15#8, accSum := 0x15#8, accCount := 2#8 }) State.reset)).line.rx =
      .frame { openedFrame .stray with
        count := 5, head := [0x00#8, 0x15#8, 0x13#8], older := some 0x06#8, newer := some 0x2B#8
        accXor := 0x06#8, accSum := 0x28#8, accCount := 3#8 } := by decide +kernel

/-- Section 9.4.1: A's posting at threshold 4 loads the timer; H's sets the flag; the removal of D clears it. -/
def coalesced (n : Nat) (ready : Bool) (timer : Byte) : CompletionQueue :=
  { (waiting n State.reset).queue with threshold := 4#6, lingerTime := 30#8, ready := ready, lingerTimer := timer }

theorem test_coalesced :
    (coalesced 1 false 0#8).evalPosting = coalesced 1 false 30#8 ∧
    (coalesced 4 false 26#8).evalPosting = coalesced 4 true 0#8 ∧
    (coalesced 0 true 24#8).evalRemoval = coalesced 0 false 0#8 ∧
    (after .lingerExpiry { State.reset with queue := coalesced 3 false 1#8 }).queue = coalesced 3 true 0#8 := by
  decide +kernel

theorem test_coalesceWrite_lowers_the_threshold :
    (after (.coalesceWrite 0x1E01#16) { State.reset with queue := coalesced 1 false 25#8 }).queue =
      { coalesced 1 true 0#8 with threshold := 1#6 } := by decide +kernel

/-- A slot with its attempts counted. -/
def tried (n : BitVec 4) (x : Slot) : Option Slot := some { x with attempts := n }

/-- Section 6.6: the second failure brings consec_fail to the limit: three completions, bit 4 of the Lost Summary. -/
def lossBoard : State :=
  during (standing .send (.station 4) (some 0) .awaitReply)
    { State.reset with
      host := { HostWindow.reset with run := true }
      line := { LineEngine.reset with replyTimer := 1#8 }
      command := { CommandUnit.reset with
        slots := ((CommandUnit.reset.slots.set 0 (tried 2#4 (slotOf .send 0x0500#16 12#8 (.station 4) (some 2)))).set 1
          (tried 0#4 (slotOf .poll 0x0501#16 12#8 (.station 4) none))).set 2
          (tried 0#4 (slotOf .send 0x0502#16 12#8 (.station 4) (some 6))) }
      table := { StationTable.reset with
        entries := StationTable.reset.entries.set 4
          { ready 12#8 [0, 1, 2] with consecFail := 2#4, failTotal := 6#16, lastFault := .check } }
      store := { RecordStore.reset with
        descriptors := (RecordStore.reset.descriptors.set 2 (held .sending 4 [0])).set 6 (held .queued 4 [1]) } }

theorem test_station_lost_completions :
    (after .replyTimerExpiry lossBoard).queue.entries.map
      (fun c => (c.tag, c.outcome, c.attempts, c.detail, c.handle)) =
      [(0x0500#16, .stationFailed, 2#4, 1#8, some 2), (0x0501#16, .stationFailed, 0#4, 1#8, none),
        (0x0502#16, .stationFailed, 0#4, 1#8, some 6)] := by decide +kernel

theorem test_station_lost_entry :
    ((after .replyTimerExpiry lossBoard).entry 4).state = .failed ∧
    ((after .replyTimerExpiry lossBoard).entry 4).failTotal = 7#16 ∧
    (after .replyTimerExpiry lossBoard).table.lostSummary = 0x0010#16 ∧
    (after .replyTimerExpiry lossBoard).exchange = none := by decide +kernel

/-- Section 4.8.1: the poll timer runs out with command work and round work ready, the flag naming COMMAND. -/
def arbiterBoard : State :=
  { board with
    arbiter := { Arbiter.reset with alternation := .command, pollTimer := .load 1#8 }
    line := { LineEngine.reset with guardTimer := 1#4 }
    table := { StationTable.reset with entries := (((StationTable.reset.entries.set 0
      { ready 5#8 [0] with pollMember := true }).set 1 { ready 6#8 [] with pollMember := true, paused := true }).set 2
      { ready 7#8 [] with pollMember := true, syncNeeded := true }).set 3 (ready 8#8 [1]) } }

theorem test_arbiter_first_choice :
    (after .pollPeriodExpiry arbiterBoard).exchange = some (granted .roundPoll (.station 0) none) ∧
    (after .pollPeriodExpiry arbiterBoard).arbiter.roundPosition = 1 ∧
    (after .pollPeriodExpiry arbiterBoard).arbiter.alternation = .round := by decide +kernel

/-- Section 7.6: an ALLOC of 100 bytes takes blocks 0 to 3. -/
theorem test_alloc_takes_four_blocks :
    ((after .alloc (called 0#16 0#16 100#16 State.reset)).record 0).chain = [0, 1, 2, 3] ∧
    (after .alloc (called 0#16 0#16 100#16 State.reset)).freeCount = 508 ∧
    (after .alloc (called 0#16 0#16 100#16 State.reset)).command.result = .accepted 0#6 := by decide +kernel

/-- Section 8.2.4: the first block brings the free count from 5 to LOW, 4: restraint and its cause. -/
theorem test_arrival_enters_restraint :
    let a : Arrival := { handle := some 0, source := 44#8, seen := 0, stop := none }
    let s : State := { State.reset with
      inbound := { arrival := some a, list := [] }
      store := { RecordStore.reset with
        descriptors := RecordStore.reset.descriptors.set 0 { held .arriving 0 [] with origin := 44#8 }
        freeList := [7, 8, 9, 10, 11], low := 4, high := 8 } }
    (s.takePayloadByte 480 0xAA#8).store.restraint = .restrained ∧
    (s.takePayloadByte 480 0xAA#8).host.restraintCause = true ∧
    (s.takePayloadByte 480 0xAA#8).store.bytes = [(7 * 32, 0xAA#8)] := by decide +kernel

/-- Section 2.5: a HOLD leaves tx_seq and the command; section 3.4.4: a DONE of result 5 posts detail 5, extent 2. -/
theorem test_probe_done :
    ((board.probeDone 2 5#8).queue.entries.map fun c => (c.outcome, c.detail, c.extent, c.attempts)) =
      [(.doneOk, 5#8, 2, 1#4)] ∧ ((board.probeDone 2 5#8).entry 2).state = .ready := by decide +kernel

/-! ### Witnesses: states and operands that meet the hypotheses of each statement -/

theorem witness_StepTakesTheFrontCommand :
    ({ State.reset with pending := [.flush, .poll] } : State).pending = .flush :: [.poll] := rfl

/-- The timers stopped, at their last character time and with two to run. -/
theorem witness_AnEmptyQueueLetsTimePass :
    board.pending = [] ∧ ({ board with resetHeld := true } : State).resetHeld = true ∧ 16319 < 64 * (255#8).toNat ∧
    board.resetHeld = false ∧ (0#4).toNat < 2 ∧ (1#4).toNat < 2 ∧ 2 ≤ (2#4).toNat ∧ (1#8).toNat < 2 ∧
    2 ≤ (2#8).toNat ∧ 2 ≤ (255#8).toNat ∧ ¬ ReportDue board ∧
    ReportDue (during (standing .send (.station 0) (some 0) .guard) board) ∧
    ReportDue (during { standing .poll (.station 0) none .answerGuard with decision := some ⟨.long, true, 481⟩ } board) := by
  decide +kernel

/-- Entry 0's SEND on a line quiet for some time, its reply timer at its last character time. -/
def lateBoard : State :=
  during (standing .send (.station 0) (some 0) .awaitReply)
    { calm with line := { calm.line with replyTimer := 1#8 } }

/-- R27, R96, 2.5.1: after the reply timer's end the retry is in GUARD with the attempt not yet counted; a Marker that
comes with it opens a stray frame there. -/
theorem test_marker_with_the_expiry :
    let s := after .replyTimerExpiry lateBoard
    let t := after (.characterReceived 0xE0#8 true true) s
    s.exchange.map Exchange.phase = some .guard ∧ s.exchange.map Exchange.attempt = some 2#8 ∧
    (s.slot 0).map Slot.attempts = some 1#4 ∧ t.line.rx = .frame (openedFrame .stray) ∧
    t.exchange.map Exchange.phase = some .guard ∧ t.line.echo = 0#16 := by decide +kernel

/-- R97: with nothing coming together with it, the quiet line is reported before any time passes. -/
theorem test_quiet_line_reported_at_once :
    step (after .replyTimerExpiry lateBoard) = .next (after .replyTimerExpiry lateBoard).settle ∧
    (after .replyTimerExpiry lateBoard).settle.exchange.map Exchange.phase = some .transmit ∧
    ((after .replyTimerExpiry lateBoard).settle.slot 0).map Slot.attempts = some 2#4 :=
  ⟨congrArg Host.Outcome.next (if_pos (by decide +kernel)), by decide +kernel, by decide +kernel⟩

/-- R45: a Marker that comes with a LINE_ABORT in AWAIT_REPLY opens a stray frame, the next exchange granted. -/
theorem test_marker_with_the_abort :
    let t := after (.characterReceived 0xE0#8 true true) (after .lineAbort lateBoard)
    t.exchange.map Exchange.phase = some .guard ∧ t.line.rx = .frame (openedFrame .stray) := by decide +kernel

theorem witness_EveryCommandCompletes :
    (Instr.badCodeCommand 21#16).wellFormed = true ∧ (Instr.badCodeCommand 20#16).wellFormed = false ∧
    Instr.send.wellFormed = true ∧ Instr.send ≠ .resetRelease ∧
    ({ State.reset with resetHeld := true } : State).resetHeld = true := by decide

/-- The hypothesis of every statement about the part with its RESET pin high. -/
theorem witness_resetHeld : State.reset.resetHeld = false ∧ board.resetHeld = false := ⟨rfl, rfl⟩

theorem witness_AfterHardwareReset :
    State.reset.host.winSelect = 0#8 ∧ (State.reset.record 0).state = .free := by decide +kernel

/-- A round in progress at a position. -/
def inRound (p : Fin 17) (s : State) : State :=
  { s with arbiter := { s.arbiter with roundInProgress := true, roundPosition := p } }

/-- Entry 15 a poll member. -/
def member : State :=
  calm.setEntry 15 { ready 9#8 [] with pollMember := true }

theorem witness_SettlingWithoutWorkAndFinishedRounds :
    (State.reset.exchange = none ∧ State.reset.host.run = false) ∧
    (during (standing .poll (.station 0) none .transmit) board).exchange =
      some (standing .poll (.station 0) none .transmit) ∧
    ({ board with line := { board.line with guardTimer := 1#4 } } : State).lineQuiet = false ∧
    ((∀ i, ¬ ProbeDue State.reset i) ∧ ¬ CommandReady State.reset ∧
      State.reset.arbiter.roundInProgress = false) ∧
    (∀ i : EntryId, (inRound 16 member).arbiter.roundPosition.val ≤ i.val → ¬ Visitable (inRound 16 member) i) ∧
    (∀ i : EntryId, (inRound 0 calm).arbiter.roundPosition.val ≤ i.val → ¬ Visitable (inRound 0 calm) i) ∧
    (inRound 0 calm).store.restraint = .open ∧
    ((inRound 15 member).arbiter.roundPosition.val ≤ (15 : EntryId).val ∧ Visitable (inRound 15 member) 15) ∧
    (let s : State := inRound 16 { State.reset with host := { HostWindow.reset with run := true } };
      s.exchange = none ∧ s.host.run = true ∧ (∀ i, ¬ ProbeDue s i) ∧ ¬ CommandReady s ∧
      s.arbiter.roundInProgress = true ∧ s.store.restraint = .open ∧
      ∀ i : EntryId, s.arbiter.roundPosition.val ≤ i.val → ¬ Visitable s i) ∧
    (let s : State := inRound 0 { State.reset with
        host := { HostWindow.reset with run := true }, store := { RecordStore.reset with restraint := .restrained } };
      s.exchange = none ∧ s.host.run = true ∧ (∀ i, ¬ ProbeDue s i) ∧ ¬ CommandReady s ∧
      s.arbiter.roundInProgress = true ∧ s.store.restraint = .restrained) :=
  ⟨by decide +kernel, by decide +kernel, by decide +kernel, ⟨by decide +kernel, by decide +kernel, by decide +kernel⟩,
    by decide +kernel, by decide +kernel, by decide +kernel, by decide +kernel,
    ⟨by decide +kernel, by decide +kernel, by decide +kernel, by decide +kernel, by decide +kernel, by decide +kernel,
      by decide +kernel⟩,
    ⟨by decide +kernel, by decide +kernel, by decide +kernel, by decide +kernel, by decide +kernel, by decide +kernel⟩⟩

theorem witness_ProbesGoFirst :
    board.exchange = none ∧ board.host.run = true ∧ ProbeDue board 2 ∧
    ∀ j : EntryId, j.val < (2 : EntryId).val → ¬ ProbeDue board j := by decide +kernel

/-- The calm board with the arbiter's pointer at a place. -/
def walking (p : Fin 17) (s : State) : State := { s with arbiter := { s.arbiter with pointer := p } }

/-- The whole walk round to entry 0, sync_needed clear and set, and the first place the broadcast list. -/
theorem witness_CommandWorkWalksTheCircle :
    ((∀ i, ¬ ProbeDue (walking 1 calm) i) ∧ calm.exchange = none ∧ calm.host.run = true ∧
      ¬ RoundReady (walking 1 calm)) ∧
    (PlaceReady calm (calm.arbiter.pointer + 0) ∧
      (calm.entry 0).syncNeeded = false ∧ (calm.entry 0).pendingList.head? = some 0 ∧ (calm.slot 0).isSome = true) ∧
    (let s : State := walking 1 { calm with command := { calm.command with broadcastList := [] } };
      PlaceReady s (s.arbiter.pointer + 16) ∧
        ∀ e : Fin 17, e.val < (16 : Fin 17).val → ¬ PlaceReady s (s.arbiter.pointer + e)) ∧
    (PlaceReady (walking 16 calm) ((walking 16 calm).arbiter.pointer + 0) ∧
      (walking 16 calm).arbiter.pointer + 0 = 16 ∧ calm.command.broadcastList.head? = some 2) ∧
    (let s : State := calm.setEntry 0 { calm.entry 0 with syncNeeded := true };
      PlaceReady s (s.arbiter.pointer + 0) ∧ (s.entry 0).syncNeeded = true) :=
  ⟨by decide +kernel, by decide +kernel, ⟨by decide +kernel, by decide +kernel⟩, by decide +kernel,
    ⟨by decide +kernel, by decide +kernel⟩⟩

theorem witness_RoundWorkVisitsInOrder :
    let s : State := inRound 15 { member with arbiter := { member.arbiter with alternation := .command } }
    s.exchange = none ∧ s.host.run = true ∧ (∀ j, ¬ ProbeDue s j) ∧ s.arbiter.roundInProgress = true ∧
    s.store.restraint = .open ∧ s.arbiter.roundPosition.val ≤ (15 : EntryId).val ∧ Visitable s 15 ∧
    (∀ j : EntryId, s.arbiter.roundPosition.val ≤ j.val → j.val < (15 : EntryId).val → ¬ Visitable s j) ∧
    CommandReady s ∧ s.arbiter.alternation = .command := by decide +kernel

theorem witness_NothingIsGrantedWhileStopped :
    exec (.runStop 0#15) State.reset = .next (after (.runStop 0#15) State.reset) ∧
    State.reset.exchange = none ∧ (after (.runStop 0#15) State.reset).host.run = false :=
  ⟨exec_after (by decide +kernel), by decide +kernel, by decide +kernel⟩

/-- A probe and a SEND granted. -/
theorem witness_GrantsGoToStationsThatMayHaveThem :
    exec (.causeAck 0#16) board = .next (after (.causeAck 0#16) board) ∧ board.exchange = none ∧
    ((after (.causeAck 0#16) board).exchange.map fun x => (x.kind, x.place)) = some (.probe, .station 2) ∧
    exec (.causeAck 0#16) calm = .next (after (.causeAck 0#16) calm) ∧ calm.exchange = none ∧
    ((after (.causeAck 0#16) calm).exchange.map fun x => (x.kind, x.place)) = some (.send, .station 0) :=
  ⟨exec_after (by decide +kernel), by decide +kernel, by decide +kernel, exec_after (by decide +kernel),
    by decide +kernel, by decide +kernel⟩

/-- The queue holding a POLL's arrival of a completion leaves no work waiting: a state with an exchange in flight. -/
theorem witness_NoWorkIsLeftWaiting :
    let s : State := { during (standing .poll (.station 0) none .awaitReply) board with pending := [.lineAbort] }
    NoWorkWaits s ∧ NoWorkWaits State.reset ∧ step s = .next (after .lineAbort { s with pending := [] }) :=
  ⟨by decide +kernel, by decide +kernel, show exec .lineAbort _ = _ from exec_after (by decide +kernel)⟩

/-- Record 63 READY, and the commitment count brought to 31 and to 32. -/
def edge (n : Nat) : State :=
  waiting n { calm with store := { calm.store with descriptors := calm.store.descriptors.set 63 (held .ready 1 []) } }

theorem witness_SendAndBroadcastTakeASlot :
    (lowByte ((called 5#16 1#16 63#16 (edge 28)).param 2)).toNat = (63 : Handle).val ∧
    ((called 5#16 1#16 63#16 (edge 28)).record 63).state = .ready ∧
    (called 5#16 1#16 63#16 (edge 28)).commitment = 31 ∧
    (called 5#16 1#16 63#16 (edge 28)).namedEntry.toOption = some 0 ∧ ((edge 28).entry 0).state ≠ .failed := by
  decide +kernel

theorem witness_PollAndActionTakeASlot :
    (called 5#16 1#16 0x0600#16 (edge 28)).namedEntry.toOption = some 0 ∧ ((edge 28).entry 0).state ≠ .failed ∧
    (called 5#16 1#16 0x0600#16 (edge 28)).commitment = 31 ∧
    (highByte ((called 5#16 1#16 0x0600#16 (edge 28)).param 2)).toNat = 6 := by decide +kernel

theorem witness_LineCommandsAreChecked :
    ((lowByte ((called 0#16 0#16 0#16 board).param 0)).toNat = 0 ∧
      63 ≤ (lowByte ((called 63#16 0#16 0#16 board).param 0)).toNat) ∧
    ((∀ e, (board.entry e).address ≠ some (lowByte ((called 1#16 0#16 0#16 board).param 0))) ∧
      ∀ e, (board.entry e).address ≠ some (lowByte ((called 62#16 0#16 0#16 board).param 0))) ∧
    ((called 6#16 0#16 0#16 board).namedEntry.toOption = some 1 ∧ (board.entry 1).state = .failed) ∧
    (6 < (highByte ((called 5#16 0#16 0x0700#16 board).param 2)).toNat ∧
      63 < (lowByte ((called 5#16 0#16 64#16 board).param 2)).toNat) ∧
    ((board.record 63).state = .free ∧ (board.record 1).state = .filling ∧ (board.record 2).state = .queued ∧
      (board.record 4).state = .inbound ∧ (board.record 0).state = .ready) ∧
    ((called 5#16 0#16 0x0600#16 (edge 29)).commitment = 32 ∧ (called 5#16 0#16 0x0600#16 (edge 28)).commitment = 31 ∧
      ((edge 29).record 63).state = .ready) := by decide +kernel

theorem witness_CompletionsOnlyJoinTheTail :
    exec .replyTimerExpiry lossBoard = .next (after .replyTimerExpiry lossBoard) ∧
    (after .replyTimerExpiry lossBoard).queue.entries ≠ [] := ⟨exec_after (by decide +kernel), by decide +kernel⟩

/-- Every entry READY at one address. -/
def crowded : State :=
  { State.reset with table := { StationTable.reset with entries := Vector.replicate 16 (ready 5#8 []) } }

/-- Entry 15 the only VACANT one. -/
def lastPlace : State := crowded.setEntry 15 Entry.vacant

theorem witness_AttachTakesTheLowestVacantEntry :
    (let s := called 62#16 0x000F#16 480#16 lastPlace;
      (lowByte (s.param 0)).toNat = 62 ∧ (lowByte (s.param 1)).toNat = 15 ∧ (s.param 2).toNat = 480 ∧
      (∀ e, (s.entry e).state = .vacant ∨ (s.entry e).address ≠ some (lowByte (s.param 0))) ∧
      (s.entry 15).state = .vacant ∧ ∀ j : EntryId, j.val < (15 : EntryId).val → (s.entry j).state ≠ .vacant) ∧
    (let s := called 1#16 0#16 1#16 crowded;
      (lowByte (s.param 0)).toNat = 1 ∧ (lowByte (s.param 1)).toNat = 0 ∧ (s.param 2).toNat = 1 ∧
      (∀ e, (s.entry e).state = .vacant ∨ (s.entry e).address ≠ some (lowByte (s.param 0))) ∧
      ∀ e, (s.entry e).state ≠ .vacant) ∧
    ((crowded.entry 0).state ≠ .vacant ∧
      (crowded.entry 0).address = some (lowByte ((called 5#16 0#16 1#16 crowded).param 0))) ∧
    (15 < (lowByte ((called 1#16 16#16 1#16 crowded).param 1)).toNat ∧
      ((called 1#16 0#16 0#16 crowded).param 2).toNat = 0 ∧ 480 < ((called 1#16 0#16 481#16 crowded).param 2).toNat) ∧
    ((lowByte ((called 0#16 0#16 1#16 crowded).param 0)).toNat = 0 ∧
      63 ≤ (lowByte ((called 63#16 0#16 1#16 crowded).param 0)).toNat) := by decide +kernel

theorem board_listsSound : ListsSound board :=
  ⟨⟨by decide +kernel, by decide +kernel, by intro x hx; cases hx⟩, by decide +kernel⟩

theorem witness_DetachFinishesTheStation :
    ((called 7#16 0#16 0#16 board).namedEntry.toOption = some 2 ∧
      ∀ x ∈ (called 7#16 0#16 0#16 board).exchange, x.place ≠ .station 2) ∧
    ListsSound (called 7#16 0#16 0#16 board) ∧
    ∃ x ∈ (during (standing .probe (.station 2) none .transmit) (called 7#16 0#16 0#16 board)).exchange,
      x.place = .station 2 := ⟨by decide +kernel, board_listsSound, by decide +kernel⟩

theorem witness_AddressesPauseResumeRevive :
    ((called 5#16 0#16 0#16 board).namedEntry.toOption = some 0 ∧ (board.entry 0).state ≠ .failed) ∧
    ((called 6#16 0#16 0#16 board).namedEntry.toOption = some 1 ∧ (board.entry 1).state = .failed) ∧
    ((lowByte ((called 0#16 0#16 0#16 board).param 0)).toNat = 0 ∧
      63 ≤ (lowByte ((called 63#16 0#16 0#16 board).param 0)).toNat) ∧
    ((∀ e, (board.entry e).address ≠ some (lowByte ((called 1#16 0#16 0#16 board).param 0))) ∧
      ∀ e, (board.entry e).address ≠ some (lowByte ((called 62#16 0#16 0#16 board).param 0))) ∧
    ((board.entry 2).state ≠ .vacant ∧
      (board.entry 2).address = some (lowByte ((called 7#16 0#16 0#16 board).param 0))) := by decide +kernel

/-- The SEND engaged, the open action at the head, and nothing spared: with a list and with none. -/
theorem witness_FlushCancelsOrMarks :
    (ListsSound (during (standing .send (.station 0) (some 0) .transmit) (called 5#16 0#16 0#16 board)) ∧
      ListsSound (called 7#16 0#16 0#16 board) ∧ ListsSound (called 5#16 0#16 0#16 board)) ∧
    (called 5#16 0#16 0#16 board).namedEntry.toOption = some 0 ∧ (board.entry 0).pendingList.head? = some 0 ∧
    (called 7#16 0#16 0#16 board).namedEntry.toOption = some 2 ∧ (board.entry 2).pendingList.head? = some 1 ∧
    (board.entry 2).openAction = some 1 ∧ (board.entry 0).openAction ≠ some 0 ∧
    (called 6#16 0#16 0#16 board).namedEntry.toOption = some 1 ∧ (board.entry 1).pendingList = [] := by
  refine ⟨⟨⟨⟨by decide +kernel, by decide +kernel, ?_⟩, board_listsSound.2⟩, board_listsSound, board_listsSound⟩,
    by decide +kernel⟩
  intro x hx
  obtain rfl : x = standing .send (.station 0) (some 0) .transmit := (Option.some.inj hx).symm
  exact ⟨Or.inr (by decide +kernel), by decide⟩

theorem witness_StationQueryReportsTheEntry :
    15 < (lowByte ((called 16#16 0#16 0#16 board).param 0)).toNat ∧
    (15 : EntryId).val = (lowByte ((called 15#16 0#16 0#16 board).param 0)).toNat := by decide +kernel

theorem witness_LineQueryReportsTheLine :
    2 ≤ (lowByte ((called 2#16 0#16 0#16 board).param 0)).toNat ∧
    (lowByte ((called 1#16 0#16 0#16 board).param 0)).toNat = 1 ∧
    (lowByte ((called 0x0100#16 0#16 0#16 board).param 0)).toNat = 0 ∧ board.exchange = none ∧
    (during (standing .poll (.station 0) none .guard) board).exchange.isSome = true := by decide +kernel

/-- The station's reply being received, with an arrival in record 6. -/
def receiving (f : InFrame) : State :=
  hearing (.frame f) (during (standing .poll (.station 0) none .receiveReply)
    { board with
      inbound := { board.inbound with arrival := some { handle := some 6, source := 5#8, seen := 0, stop := none } }
      store := { board.store with descriptors := board.store.descriptors.set 6 (held .arriving 0 []) } })

theorem witness_AbortEndsTheExchange :
    (during (standing .poll (.station 0) none .guard) board).exchange =
      some (standing .poll (.station 0) none .guard) ∧
    (hearing .echo (during (standing .send (.station 0) (some 0) .transmit) board)).line.rx = .echo ∧
    (receiving (openedFrame .reply)).line.rx = .frame (openedFrame .reply) ∧
    (receiving (openedFrame .reply)).inbound.arrival.bind Arrival.handle = some 6 ∧ board.exchange = none ∧
    (let s := during (standing .send (.station 0) (some 0) .receiveReply) (board.moveRecord 2 .sending);
      s.inbound.arrival.bind Arrival.handle = none ∧ (s.slot 0).bind Slot.handle = some 2 ∧
      (s.record 2).state = .sending) := by
  decide +kernel

theorem witness_OtherWritesStoreOrChangeNothing :
    (0#16 = 0#16 ∨ 21 ≤ (0#16).toNat) ∧ 21 ≤ (21#16).toNat ∧ 21 ≤ (0xFFFF#16).toNat ∧
    23#5 ∈ [0#5, 2#5, 3#5, 7#5, 14#5, 16#5, 17#5, 18#5, 19#5, 23#5] ∧
    CommandUnit.reset.result = .none ∧ ({ CommandUnit.reset with result := .accepted 63#6 } : CommandUnit).result =
      .accepted 63#6 ∧
    ({ CommandUnit.reset with result := .refused .emptyList } : CommandUnit).result = .refused .emptyList := by decide

/-- A write and a read of WIN_DATA, each strobe at its edge, and the levels that take no access. -/
theorem witness_BusWritesAndCommandsAgree :
    (let before := busAt true false true 22#5 1#16; let later := busAt true false false 22#5 1#16;
      State.reset.resetHeld = false ∧ before.csLow = true ∧ later.csLow = true ∧ before.wrLow = true ∧
      later.wrLow = false ∧ before.rdLow = false ∧ later.rdLow = false) ∧
    (let before := busAt true false false 22#5 0#16; let later := busAt true true false 22#5 0#16;
      before.rdLow = false ∧ later.rdLow = true ∧ before.wrLow = false ∧ later.wrLow = false ∧
      before.offset = 22#5 ∧ later.csLow = true) ∧
    ((busAt true true true 0#5 0#16).rdLow = true ∧ (busAt true true true 0#5 0#16).wrLow = true ∧
      (busAt false false false 0#5 0#16).csLow = false ∧
      ({ State.reset with resetHeld := true } : State).resetHeld = true) ∧
    (let before := busAt true false true 0#5 0#16; let later := busAt true true false 0#5 0#16;
      before.rdLow = false ∧ later.rdLow = true ∧ before.wrLow ≠ later.wrLow) := by
  decide

/-- No handle FREE but 63. -/
def lastHandle : State :=
  { State.reset with store := { RecordStore.reset with
      descriptors := (Vector.replicate 64 (held .ready 1 [])).set 63 Descriptor.free, freeList := [0, 1] } }

theorem witness_AllocTakesTheFirstBlocks :
    (((called 0#16 0#16 0#16 board).param 2).toNat = 0 ∧ 480 < ((called 0#16 0#16 481#16 board).param 2).toNat ∧
      ((called 0#16 0#16 480#16 board).param 2).toNat = 480 ∧ ((called 0#16 0#16 1#16 board).param 2).toNat = 1) ∧
    ((lastHandle.record 63).state = .free ∧
      ∀ g : Handle, g.val < (63 : Handle).val → (lastHandle.record g).state ≠ .free) ∧
    (∀ h, ((lastHandle.setRecord 63 (held .ready 1 [])).record h).state ≠ .free) ∧
    (lastHandle.store.freeList.length < (65 + 31) / 32 ∧ (64 + 31) / 32 ≤ lastHandle.store.freeList.length) := by
  decide +kernel

theorem witness_SealAndFreeJudgeTheRecord :
    63 < (lowByte ((called 0#16 0#16 64#16 board).param 2)).toNat ∧
    (63 : Handle).val = (lowByte ((called 0#16 0#16 63#16 board).param 2)).toNat ∧ (board.record 63).state = .free ∧
    ((receiving (openedFrame .reply)).record 6).state = .arriving ∧ (board.record 2).state = .queued ∧
    (board.record 4).state = .inbound ∧ (board.record 0).state = .ready ∧ (board.record 1).state = .filling := by
  decide +kernel

theorem witness_ReleaseAndSetMarks :
    State.reset.inbound.list = [] ∧ board.inbound.list = 4 :: [] ∧
    510 < ((called 511#16 512#16 0#16 board).param 0).toNat ∧
    ((called 510#16 510#16 0#16 board).param 1).toNat ≤ ((called 510#16 510#16 0#16 board).param 0).toNat ∧
    512 < ((called 0#16 513#16 0#16 board).param 1).toNat ∧
    (let s := called 510#16 512#16 0#16 board;
      (s.param 0).toNat ≤ 510 ∧ (s.param 0).toNat < (s.param 1).toNat ∧ (s.param 1).toNat ≤ 512) := by
  decide +kernel

theorem witness_RunAndPollTime :
    board.host.run = true ∧ State.reset.host.run = false ∧ lowByte 0xFF00#16 = 0#8 ∧ lowByte 0x0001#16 ≠ 0#8 := by
  decide +kernel

/-- The codes on either side of each latched cause; a cause shown, and none. -/
theorem witness_CausesAndTheInterruptOutput :
    ((0#16 ≠ 1#16 ∧ 0#16 ≠ 2#16 ∧ 0#16 ≠ 5#16) ∧ (6#16 ≠ 1#16 ∧ 6#16 ≠ 2#16 ∧ 6#16 ≠ 5#16)) ∧
    (board.inbound.list ≠ [] ∧ ({ board.host with causeEnable := 0x08#5 } : HostWindow).causeEnable.getLsbD 3 = true) ∧
    board.host.causeEnable = 0#5 := by decide +kernel

theorem witness_CompletionQueueHappenings :
    State.reset.queue.entries = [] ∧ (waiting 1 board).queue.entries = [polled] ∧
    (waiting 2 board).queue.entries = polled :: polled :: [] ∧ board.queue.lingerTimer = 0#8 ∧
    (coalesced 1 false 1#8).lingerTimer ≠ 0#8 := by decide +kernel

theorem witness_WindowReads :
    63 < (pointing 64#8 0#16 board).host.winSelect.toNat ∧
    (63 : Handle).val = (pointing 63#8 0#16 board).host.winSelect.toNat ∧ (board.record 63).state = .free ∧
    ((receiving (openedFrame .reply)).record 6).state = .arriving ∧
    ((board.record 0).length < (pointing 0#8 6#16 board).host.winOffset.toNat) ∧
    ((board.record 0).state ≠ .free ∧ (board.record 0).state ≠ .arriving ∧
      (pointing 0#8 4#16 board).host.winOffset.toNat ≤ (board.record 0).length) := by decide +kernel

theorem witness_WindowWrites :
    BytesCanonical board ∧ 63 < (pointing 64#8 0#16 board).host.winSelect.toNat ∧
    (0 : Handle).val = (pointing 0#8 0#16 board).host.winSelect.toNat ∧ (board.record 0).state ≠ .filling ∧
    ((board.record 1).length ≤ (pointing 1#8 40#16 board).host.winOffset.toNat) ∧
    (let s := (pointing 1#8 38#16 board).setRecord 1 (held .filling 39 [1, 2]);
      (s.record 1).state = .filling ∧ s.host.winOffset.toNat < (s.record 1).length ∧
      s.host.winOffset.toNat % 2 = 0 ∧ (s.record 1).chain.length = ((s.record 1).length + 31) / 32) := by
  decide +kernel

theorem witness_LostSummaryFollowsTheLosses :
    exec .replyTimerExpiry lossBoard = .next (after .replyTimerExpiry lossBoard) ∧
    (lossBoard.entry 4).state ≠ .failed ∧ ((after .replyTimerExpiry lossBoard).entry 4).state = .failed ∧
    lossBoard.table.lostSummary.getLsbD 4 = false ∧
    (after .replyTimerExpiry lossBoard).table.lostSummary.getLsbD 4 = true ∧
    exec .hardwareReset lossBoard = .next (after .hardwareReset lossBoard) ∧ lossBoard.resetHeld = false ∧
    TableSound lossBoard := by
  refine ⟨exec_after (by decide +kernel), by decide +kernel, by decide +kernel, by decide +kernel, by decide +kernel,
    exec_after (by decide +kernel), rfl, by decide +kernel, by decide +kernel, ?_⟩
  intro x hx
  obtain rfl : x = standing .send (.station 4) (some 0) .awaitReply := (Option.some.inj hx).symm
  exact ⟨Or.inr (by decide +kernel), by decide⟩

theorem witness_TheTransmitterSendsTheFrame :
    (wireFrame [0x15#8, 0x00#8, 0x13#8])[0]? = some 0xE0#8 ∧ (wireFrame [0x15#8, 0x00#8, 0x13#8])[6]? = some 0xE1#8 := by
  decide +kernel

theorem witness_SoundFramesAreDecodedWhole :
    board.line.rx = .hunt ∧ board.line.lineHeld = false ∧ (List.replicate 483 0xE0#8).length ≤ 483 ∧
    ([] : List Byte).length ≤ 483 ∧ (∀ x ∈ board.exchange, x.phase ≠ .awaitReply) ∧
    ∀ x ∈ (during (standing .poll (.station 0) none .guard) board).exchange, x.phase ≠ .awaitReply := by
  decide +kernel

/-- The echo list given. -/
def echoing (l : List Byte) (s : State) : State :=
  { s with line := { s.line with rx := .echo, echoList := l.map fun v => { value := v, deadline := 1 } } }

/-- The board with a POLL at the head of entry 0 in slot 0. -/
def polling : State := board.setSlot 0 (some (slotOf .poll 0x1111#16 5#8 (.station 0) none))

theorem polling_listed : SlotsListed polling := by decide +kernel

/-- The POLL answered with a decision. -/
def answering (v : Verdict) : Exchange :=
  { standing .poll (.station 0) (some 0) .answer with decision := some ⟨v, true, 4⟩ }

/-- The last echo of a BROADCAST, its record freed or kept, and of an answer, to a ROUND_POLL and to a POLL. -/
theorem witness_CharactersOutsideAFrame_ends :
    (let s := during (standing .broadcast .broadcast (some 2) .transmit) (echoing [0xE1#8] board);
      s.line.rx = .echo ∧ s.line.echoList = [{ value := 0xE1#8, deadline := 1 }] ∧
      (s.slot 2).map (fun y => (y.place, y.handle)) = some (.broadcast, some 3) ∧ (s.record 3).keep = false ∧
      ((board.setRecord 3 { board.record 3 with keep := true }).record 3).keep = true) ∧
    ((standing .roundPoll (.station 0) none .answer).slot = none ∧
      (standing .roundPoll (.station 0) none .answer).phase = .answer) ∧
    (let s := during (answering (.accepted 4)) (echoing [0xE1#8] polling);
      s.exchange = some (answering (.accepted 4)) ∧ (answering (.accepted 4)).decision.isSome = true ∧
      (s.slot 0).map (fun y => (y.place, y.handle)) = some (.station 0, none) ∧
      (s.entry 0).pendingList = 0 :: []) ∧ SlotsListed polling :=
  ⟨by decide +kernel, by decide +kernel, by decide +kernel, polling_listed⟩

theorem witness_CharactersOutsideAFrame :
    ({ board.line with lineHeld := true } : LineEngine).lineHeld = true ∧ board.line.lineHeld = false ∧
    (hearing .drain board).line.rx = .drain ∧ board.line.rx = .hunt ∧
    (evenParity 0xE0#8 = true ∧ (true = evenParity 0xE0#8 ∧ true = true) ∧
      ¬ ((false = evenParity 0xE0#8 ∧ true = true) ∧ 0xE0#8 = 0xE0#8)) ∧
    (during (standing .poll (.station 0) none .awaitReply) board).exchange =
      some (standing .poll (.station 0) none .awaitReply) ∧
    (echoing [0xE1#8, 0x15#8] board).line.rx = .echo ∧
    (echoing [0xE1#8, 0x15#8] board).line.echoList =
      { value := 0xE1#8, deadline := 1 } :: [{ value := 0x15#8, deadline := 1 }] ∧
    (echoing [0xE1#8] board).line.echoList = [{ value := 0xE1#8, deadline := 1 }] ∧
    (standing .poll (.station 0) none .transmit).kind ≠ .broadcast := by decide +kernel

/-- A stray frame with a body count, empty-handed or with a held pair. -/
def strayAt (n : Nat) (older newer : Option Byte) : InFrame :=
  { openedFrame .stray with count := n, older := older, newer := newer }

theorem witness_CharactersInsideAFrame :
    (∀ f ∈ [strayAt 0 none none, strayAt 1 none (some 1#8), strayAt 484 (some 1#8) (some 2#8),
        strayAt 485 (some 1#8) (some 2#8), { strayAt 485 (some 1#8) (some 2#8) with oversize := true },
        { strayAt 2 (some 1#8) (some 2#8) with shiftPending := true }],
      (hearing (.frame f) board).line.rx = .frame f ∧ f.dest = .stray ∧
        (hearing (.frame f) board).line.lineHeld = false) ∧
    ((receiving (openedFrame .reply)).line.rx = .frame (openedFrame .reply) ∧ (openedFrame .reply).dest = .reply) ∧
    (let f := { strayAt 5 (some 6#8) (some 9#8) with accXor := 6#8, accSum := 7#8, accCount := 2#8 };
      5 ≤ f.count ∧ (f.older = some f.accXor ∧ f.newer = some (f.accSum + f.accCount)) ∧
      ¬ ((strayAt 5 (some 6#8) (some 9#8)).older = some (strayAt 5 (some 6#8) (some 9#8)).accXor)) ∧
    (∀ v ∈ [0xE0#8, 0xE1#8, 0xE2#8, 0xEF#8, 0xEE#8, 0xED#8, 0xEC#8, 0xDF#8, 0xE3#8],
      evenParity v = evenParity v ∧ true = true ∧ ¬ ((!evenParity v) = evenParity v ∧ true = true)) := by
  decide +kernel

theorem witness_EchoFaults :
    (echoing [0x15#8] board).line.rx = .echo ∧ (echoing [0x15#8] board).line.echoList ≠ [] ∧
    (echoing [] board).line.echoList = [] ∧ (echoing [] board).line.lineHeld = false ∧
    (during (standing .send (.station 0) (some 0) .transmit) (echoing [0x15#8] board)).exchange.isSome = true ∧
    (∀ c ∈ (echoing [0x15#8] board).line.echoList.head?,
      ¬ (evenParity 0x16#8 = evenParity 0x16#8 ∧ true = true ∧ 0x16#8 = c.value)) ∧
    (∀ x ∈ board.exchange, x.phase ≠ .transmit ∧ x.phase ≠ .answer) := by decide +kernel

/-- An ECHO fault in ANSWER, of a ROUND_POLL and of a POLL, and a report below the limit. -/
theorem witness_EchoFaults_in_answer :
    (let s := during (standing .roundPoll (.station 0) none .answer) (echoing [0x15#8] board);
      s.line.rx = .echo ∧ s.line.echoList ≠ [] ∧ s.exchange = some (standing .roundPoll (.station 0) none .answer)) ∧
    (let s := during (answering (.noRoom true)) (echoing [0x15#8] polling);
      s.exchange = some (answering (.noRoom true)) ∧ (answering (.noRoom true)).place = .station 0 ∧
      (s.slot 0).map (fun y => (y.place, y.handle)) = some (.station 0, none) ∧ (s.entry 0).pendingList = 0 :: []) ∧
    SlotsListed polling ∧ satInc (board.entry 0).consecFail ≠ (board.entry 0).failLimit :=
  ⟨by decide +kernel, by decide +kernel, polling_listed, by decide +kernel⟩

/-- An ACTION with its six parameter bytes. -/
def sixBytes : ActionData := { code := 0x21#8, params := [1#8, 2#8, 3#8, 4#8, 5#8, 6#8] }

/-- The exchange with a decision held. -/
def holding (v : Verdict) : Exchange :=
  { standing .poll (.station 0) none .answerGuard with decision := some ⟨v, true, 0⟩ }

theorem witness_QuietLinesAreSpokenOn :
    (let s := during (standing .send (.station 0) (some 0) .guard) board;
      s.resetHeld = false ∧ s.line.rx = .hunt ∧ s.line.tx = none ∧
      s.exchange = some (standing .send (.station 0) (some 0) .guard)) ∧
    (∀ v ∈ [Verdict.duplicate, .accepted 0, .long, .shortRecord, .noRoom true],
      (during (holding v) board).exchange = some (holding v) ∧ (holding v).phase = .answerGuard ∧
      (holding v).decision = some ⟨v, true, 0⟩) ∧
    ((standing .broadcast .broadcast (some 2) .guard).kind = .broadcast ∧
      (board.slot 2).bind Slot.handle = some 3) ∧
    ((standing .send (.station 0) (some 0) .awaitReply).phase ≠ .guard ∧
      (standing .send (.station 0) (some 0) .awaitReply).phase ≠ .answerGuard) ∧
    ((board.slot 0).bind Slot.handle = some 2 ∧
      ({ slotOf .action 1#16 5#8 (.station 0) none with action := some sixBytes } : Slot).action = some sixBytes) := by
  decide +kernel

theorem witness_RepliesTimeOut :
    board.line.replyTimer = 0#8 ∧ lossBoard.line.replyTimer ≠ 0#8 ∧
    lossBoard.exchange = some (standing .send (.station 4) (some 0) .awaitReply) ∧
    (board.line.gapTimer = 0#4 ∧ board.line.rx = .hunt) ∧
    (let s : State := { receiving (openedFrame .reply) with
        line := { (receiving (openedFrame .reply)).line with gapTimer := 1#4 } };
      s.line.gapTimer ≠ 0#4 ∧ s.line.rx = .frame (openedFrame .reply) ∧ s.exchange.isSome = true ∧
      s.inbound.arrival.bind Arrival.handle = some 6 ∧ (openedFrame .reply).dest = .reply) := by decide +kernel

/-- A slot whose broadcast has been sent a number of times. -/
def sentTimes (n : BitVec 4) : State :=
  board.setSlot 2 (some { slotOf .broadcast 0x3333#16 63#8 .broadcast (some 3) with attempts := n })

theorem witness_FailedAttemptsRetryOrEnd :
    AttemptOutcome.noReply.failed = true ∧
    ((board.entry 0).state ≠ .failed ∧ satInc (board.entry 0).consecFail ≠ (board.entry 0).failLimit) ∧
    (standing .roundPoll (.station 0) none .awaitReply).kind = .roundPoll ∧
    (board.host.run = true ∧ State.reset.host.run = false) ∧
    (((sentTimes 3#4).slot 2).map (fun y => (decide (3 ≤ y.attempts.toNat), y.place, y.handle)) =
      some (true, .broadcast, some 3)) ∧
    (((sentTimes 2#4).slot 2).map fun y => decide (y.attempts.toNat < 3)) = some true := by decide +kernel

/-- A reply frame closed with good checks, of the body before them. -/
def replyFrame (b : List Byte) : InFrame :=
  let x := b.foldr (· ^^^ ·) 0#8
  let t := b.foldr (· + ·) 0#8
  { openedFrame .reply with
    count := b.length + 2, head := b.take 3, older := some x, newer := some (t + BitVec.ofNat 8 b.length)
    accXor := x, accSum := t, accCount := BitVec.ofNat 8 b.length }

/-- The exchange receiving a reply with a header. -/
def answered (k : ExchangeKind) (e : EntryId) (i : Option SlotId) (h : Header) : Exchange :=
  { standing k (.station e) i .receiveReply with header := some h }

/-- A failed attempt at the fail limit, and a WORKING to a PROBE at the probe limit. -/
theorem witness_LossCompletesTheList :
    AttemptOutcome.noReply.failed = true ∧ SlotsListed board ∧
    satInc (lossBoard.entry 4).consecFail = (lossBoard.entry 4).failLimit ∧ SlotsListed lossBoard ∧
    (let x := answered .probe 2 none ⟨0#8, 7#8, 9#8⟩
     let s := during x { board with table := { board.table with probeLimit := 3#8 } };
      s.exchange = some x ∧ s.judgeReply x (replyFrame [0#8, 7#8, 9#8]) = (.ok, some .working) ∧
      s.table.probeLimit.toNat ≤ (satInc (s.entry 2).probeCount).toNat) :=
  ⟨by decide, board_listsSound.2, by decide +kernel, by decide +kernel, by decide +kernel⟩

/-- Each condition of the order at its edge. -/
theorem witness_RepliesAreJudgedInOrder :
    (let f := replyFrame [0#8, 5#8, 3#8];
      f.shiftError = false ∧ f.charError = false ∧ f.oversize = false ∧ f.restarted = false ∧ f.count = 5 ∧
      f.older = some f.accXor ∧ f.newer = some (f.accSum + f.accCount) ∧ board.addressOf (.station 0) = 5#8) ∧
    (replyFrame [0#8, 5#8]).count = 4 ∧
    (kindOfCode ((3#8).extractLsb' 0 4) = some .ack ∧ ExchangeKind.send.allows .ack = true ∧
      FrameKind.ack.payloadFits 0 = true ∧ FrameKind.ack.payloadFits 1 = false ∧
      ExchangeKind.send.allows .data = false ∧ kindOfCode ((15#8).extractLsb' 0 4) = none) ∧
    ((receiving (openedFrame .reply)).line.rx = .frame (openedFrame .reply) ∧
      (receiving (openedFrame .reply)).line.lineHeld = false ∧ evenParity 0xE1#8 = false) ∧
    (let f : InFrame := { openedFrame .reply with count := 5, older := some 6#8, newer := some 9#8 };
      5 ≤ f.count ∧ ¬ (f.older = some f.accXor ∧ f.newer = some (f.accSum + f.accCount))) ∧
    (board.judgeReply (standing .poll (.station 0) none .receiveReply) (openedFrame .reply)).1 ≠ .ok := by
  decide +kernel

/-- R28, R94: a Marker and an End are a reply without a header: SHORT, and CODING when the frame is marked. -/
theorem test_reply_without_header :
    let x := standing .poll (.station 0) none .receiveReply
    x.header = none ∧ (openedFrame .reply).count < 5 ∧ (board.judgeReply x (openedFrame .reply)).1 = .short ∧
    (board.judgeReply x { openedFrame .reply with charError := true }).1 = .coding := by decide +kernel

/-- The third clause of RecordsOwned, with the cheap case first. -/
theorem board_owners : ∀ i j h, (board.slot i).bind Slot.handle = some h →
    (board.slot j).bind Slot.handle = some h → i = j := by
  have key : ∀ i, (board.slot i).bind Slot.handle = none ∨
      (i = 0 ∧ (board.slot i).bind Slot.handle = some 2) ∨ (i = 2 ∧ (board.slot i).bind Slot.handle = some 3) := by
    decide +kernel
  intro i j h hi hj
  rcases key i with a | ⟨rfl, a⟩ | ⟨rfl, a⟩ <;> rcases key j with b | ⟨rfl, b⟩ | ⟨rfl, b⟩
  all_goals first
    | rfl
    | (rw [a] at hi; cases hi; done)
    | (rw [b] at hj; cases hj; done)
    | exact absurd ((a.symm.trans hi).trans (b.symm.trans hj).symm) (by decide)

theorem board_recordsOwned : RecordsOwned board :=
  ⟨by decide +kernel, by decide +kernel, board_owners, by decide +kernel, by decide +kernel, by decide +kernel⟩

theorem board_storeSound : StoreSound board := ⟨by decide +kernel, by decide +kernel, board_recordsOwned⟩

/-- ACK, REFUSE and HOLD to a SEND, and ACK to a SYNC. -/
theorem witness_RepliesToSendAndSync :
    (∀ p ∈ [(3#8, ([] : List Byte), FrameKind.ack), (6#8, [1#8], .refuse), (5#8, [], .hold)],
      let x := answered .send 0 (some 0) ⟨0#8, 5#8, p.1⟩
      (during x board).exchange = some x ∧ (board.entry 0).pendingList = 0 :: [] ∧
      (board.slot 0).bind Slot.handle = some 2 ∧
      (during x board).judgeReply x (replyFrame ([0#8, 5#8, p.1] ++ p.2.1)) = (.ok, some p.2.2)) ∧
    (let x := answered (.sync .command) 0 none ⟨0#8, 5#8, 3#8⟩;
      (during x board).judgeReply x (replyFrame [0#8, 5#8, 3#8]) = (.ok, some .ack)) ∧
    (board.record 2).keep = false ∧ (board.setRecord 2 { board.record 2 with keep := true }).entry 0 = board.entry 0 ∧
    SlotsListed board ∧ RecordsOwned board :=
  ⟨by decide +kernel, by decide +kernel, by decide +kernel, by decide +kernel, board_listsSound.2, board_recordsOwned⟩

/-- The calm board with an ACTION at the head of entry 2 in slot 1. -/
def acting : State := calm.setEntry 2 (ready 7#8 [1])

/-- ACK, REFUSE and HOLD to an ACTION, and EMPTY to a POLL and to a ROUND_POLL. -/
theorem witness_RepliesToSendAndSync_action_and_poll :
    (∀ p ∈ [(3#8, ([] : List Byte), FrameKind.ack), (6#8, [1#8], .refuse), (5#8, [], .hold)],
      let x := answered .action 2 (some 1) ⟨0#8, 7#8, p.1⟩
      (during x acting).exchange = some x ∧ (acting.entry 2).pendingList = 1 :: [] ∧
      (acting.slot 1).map Slot.handle = some none ∧
      (during x acting).judgeReply x (replyFrame ([0#8, 7#8, p.1] ++ p.2.1)) = (.ok, some p.2.2)) ∧
    (let x := answered .poll 0 (some 0) ⟨0#8, 5#8, 7#8⟩;
      (during x polling).judgeReply x (replyFrame [0#8, 5#8, 7#8]) = (.ok, some .empty) ∧
      (polling.slot 0).map Slot.handle = some none ∧ (polling.entry 0).pendingList = 0 :: []) ∧
    (let x := answered .roundPoll 0 none ⟨0#8, 5#8, 7#8⟩;
      (during x board).judgeReply x (replyFrame [0#8, 5#8, 7#8]) = (.ok, some .empty)) ∧
    SlotsListed acting ∧ SlotsListed polling :=
  ⟨by decide +kernel, by decide +kernel, by decide +kernel, by decide +kernel, polling_listed⟩

theorem witness_ActionsAreFollowedByProbes :
    (let x := answered .action 0 (some 1) ⟨0#8, 5#8, 9#8⟩;
      (during x board).judgeReply x (replyFrame [0#8, 5#8, 9#8]) = (.ok, some .working)) ∧
    (let x := answered .probe 2 none ⟨0#8, 7#8, 9#8⟩;
      (during x board).judgeReply x (replyFrame [0#8, 7#8, 9#8]) = (.ok, some .working) ∧
      (satInc (board.entry 2).probeCount).toNat < (4#8).toNat) ∧
    (let x := answered .probe 2 none ⟨0#8, 7#8, 11#8⟩;
      (during x board).judgeReply x (replyFrame [0#8, 7#8, 11#8, 5#8]) = (.ok, some .done)) ∧
    (board.entry 2).openAction = some 1 ∧ (board.entry 2).pendingList = 1 :: [] ∧
    ((board.slot 1).map Slot.handle = some none) ∧ SlotsListed board :=
  ⟨by decide +kernel, by decide +kernel, by decide +kernel, by decide +kernel, by decide +kernel, by decide +kernel,
    board_listsSound.2⟩

/-- Entry 2's open action answered DONE with result 5, all but the End received, and a POLL waiting behind it. -/
def doneBoard : State :=
  hearing (.frame (replyFrame [0#8, 7#8, 11#8, 5#8]))
    (during { answered .probe 2 none ⟨0#8, 7#8, 11#8⟩ with firstPayload := some 5#8 }
      (((called 7#16 0#16 0#16 { board with arbiter := { board.arbiter with pointer := 2 } }).setEntry 2
        { board.entry 2 with pendingList := [1, 3] }).setSlot 3
        (some (slotOf .poll 0x4444#16 7#8 (.station 2) none))))

/-- The DONE's End received. -/
def doneClosed : State := after (.characterReceived 0xE1#8 false true) doneBoard

/-- R57: FLUSH and the DONE together: the close grants the POLL, which FLUSH, taken second, cancels all the same; either
order gives the same completions, and the choice then grants other work. -/
theorem test_flush_with_the_done :
    doneClosed.exchange.map (fun x => (x.kind, x.place, x.phase)) = some (.poll, .station 2, .guard) ∧
    (after .flush doneClosed).queue.entries.map Completion.outcome = [.doneOk, .cancelled] ∧
    (after .flush doneClosed).queue.entries =
      (after (.characterReceived 0xE1#8 false true) (after .flush doneBoard)).queue.entries ∧
    (after .flush doneClosed).exchange.map Exchange.place = some .broadcast := by decide +kernel

/-- R6: DETACH and the close together, and DETACH with another happening between, the station engaged again by then. -/
theorem test_detach_with_the_close :
    ((after .detach doneClosed).entry 2).state = .vacant ∧
    (after .detach doneClosed).command.result = .accepted 0#6 ∧
    (after .detach (after (.winSelectWrite 0#16) doneClosed)).command.result = .refused .engaged ∧
    ((after .flush (after (.winSelectWrite 0#16) doneClosed)).slot 3).map Slot.cancelMark = some false := by
  decide +kernel

/-- Entry 2, READY with a POLL waiting, its SYNC answered ACK, all but the End received. -/
def syncBoard : State :=
  hearing (.frame (replyFrame [0#8, 7#8, 3#8]))
    (during (answered (.sync .command) 2 none ⟨0#8, 7#8, 3#8⟩)
      (doneBoard.setEntry 2 { ready 7#8 [3] with syncNeeded := true }))

/-- R6, R18: no command completed in the SYNC's close, so a FLUSH together with it spares the POLL the close's choice
granted, and the exchange runs on. -/
theorem test_flush_with_a_sync :
    let s := after (.characterReceived 0xE1#8 false true) syncBoard
    s.exchange = some (granted .poll (.station 2) (some 3)) ∧
    (after .flush s).exchange = s.exchange ∧ (after .flush s).queue.entries = [] ∧
    ((after .flush s).entry 2).pendingList = [3] := by decide +kernel

/-- R45: LINE_ABORT together with the close, taken second, finds IDLE and changes nothing; with another happening
between it ends the exchange granted. -/
theorem test_abort_with_the_close :
    (after .lineAbort doneClosed).exchange = doneClosed.exchange ∧
    ((after .lineAbort doneClosed).entry 2).syncNeeded = false ∧
    (after .lineAbort doneClosed).command.result = .accepted 0#6 ∧
    ((after .lineAbort (after (.winSelectWrite 0#16) doneClosed)).entry 2).syncNeeded = true := by decide +kernel

/-- R13, R58: a LINE_ABORT and a DETACH do not come together; the station granted again by the abort's choice is
engaged. -/
theorem test_detach_behind_an_abort :
    let s := after .lineAbort (called 5#16 0#16 0#16 lateBoard)
    s.exchange = some (granted (.sync .command) (.station 0) none) ∧
    (after .detach s).command.result = .refused .engaged := by decide +kernel

/-- A close that is kept, and one whose choice grants nothing. -/
theorem witness_SettlingReachesOnlyTheLine :
    doneBoard.exchange.map Exchange.place = some (.station 2) ∧
    (doneBoard.receive 0xE1#8 false true).exchange = none ∧
    (doneBoard.receive 0xE1#8 false true).settle.exchange ≠ none ∧
    (doneBoard.entry 2).pendingList.head? = some 1 ∧
    1 ∉ ((doneBoard.receive 0xE1#8 false true).entry 2).pendingList ∧
    (let s := { doneBoard with host := { doneBoard.host with run := false } };
      s.exchange ≠ none ∧ (s.receive 0xE1#8 false true).settle.exchange = none) ∧
    calm.exchange = none ∧ calm.callChoice.exchange = some (granted .send (.station 0) (some 0)) ∧
    (calm.record 2).state = .queued ∧ (calm.callChoice.record 2).state = .sending ∧
    lateBoard.exchange ≠ none ∧ (after .replyTimerExpiry lateBoard).exchange ≠ none := by decide +kernel

/-- What FLUSH and DETACH find: the state as it is, and a grant of the close's choice taken back. -/
theorem witness_DetachFinds_FlushFinds :
    DetachFinds board 2 board ∧ FlushFinds board 2 board ∧
    DetachFinds doneClosed 2 (doneClosed.takeBack 2) ∧ FlushFinds doneClosed 2 (doneClosed.takeBack 2) ∧
    (doneClosed.takeBack 2).exchange = none ∧ doneClosed.namedEntry.toOption = some 2 ∧
    doneClosed.lastClose ≠ none ∧ TurnKeptSound doneClosed := by
  have hg : GrantedAgain doneClosed 2 ⟨.station 2, true, ⟨2, .round, 0⟩⟩ (granted .poll (.station 2) (some 3)) := by
    decide +kernel
  have ht : GrantTakenBack doneClosed (doneClosed.takeBack 2) ⟨.station 2, true, ⟨2, .round, 0⟩⟩
      (granted .poll (.station 2) (some 3)) := by decide +kernel
  have hn : ∀ c x, ¬ GrantedAgain board 2 c x := by
    rintro c x ⟨⟨⟩, -⟩
  exact ⟨.inl ⟨hn, rfl⟩, .inl ⟨fun c x h => absurd h (hn c x), rfl⟩, .inr ⟨_, _, hg, ht⟩,
    .inr ⟨_, _, hg, by decide, ht⟩, by decide +kernel, by decide +kernel, by decide +kernel, by decide +kernel⟩

/-- A POLL of entry 0, its inbound limit 4, receiving a DATA with an arrival. -/
def deciding (mode : LengthMode) (ctrl : Byte) (a : Arrival) : State :=
  during (answered .poll 0 none ⟨0#8, 5#8, ctrl⟩)
    { board.setEntry 0 { ready 5#8 [0] with lengthMode := mode, inboundLimit := 4 } with
      inbound := { board.inbound with arrival := some a } }

/-- A DATA of as many bytes as the limit, one more and one fewer, its bit expected or not, with each arrival. -/
theorem witness_InboundDataIsDecided :
    let stopped (h : Option Handle) (c : Option StopCause) : Arrival :=
      { handle := h, source := 5#8, seen := 4, stop := c }
    let data (ctrl : Byte) (n : Nat) : InFrame := replyFrame ([0#8, 5#8, ctrl] ++ List.replicate n 7#8)
    (∀ s ∈ [deciding .any 1#8 (stopped none (some .noHandle)), deciding .any 1#8 (stopped (some 6) (some .noBlock)),
        deciding .exact 1#8 (stopped (some 6) none)],
      s.judgeReply (answered .poll 0 none ⟨0#8, 5#8, 1#8⟩) (data 1#8 4) = (.ok, some .data) ∧
      s.judgeReply (answered .poll 0 none ⟨0#8, 5#8, 1#8⟩) (data 1#8 5) = (.ok, some .data) ∧
      s.judgeReply (answered .poll 0 none ⟨0#8, 5#8, 1#8⟩) (data 1#8 3) = (.ok, some .data) ∧
      (1#8).getLsbD 4 = (s.entry 0).rxExpect ∧ (s.entry 0).inboundLimit = 4) ∧
    ((data 1#8 4).count - 5 = 4 ∧ (data 1#8 5).count - 5 = 5 ∧ (data 1#8 3).count - 5 = 3) ∧
    (let s := deciding .any 0x11#8 (stopped none (some .noHandle));
      s.judgeReply (answered .poll 0 none ⟨0#8, 5#8, 0x11#8⟩) (data 0x11#8 4) = (.ok, some .data) ∧
      (0x11#8).getLsbD 4 ≠ (s.entry 0).rxExpect ∧ s.inbound.arrival.bind Arrival.handle = none) := by decide +kernel

/-- An arrival in record 6 that has seen a number of bytes, all stored. -/
def storing (n : Nat) (chain : List Block) (free : List Block) : State :=
  { board.setRecord 6 (held .arriving n chain) with
    inbound := { board.inbound with arrival := some { handle := some 6, source := 5#8, seen := n, stop := none } }
    store := { (board.setRecord 6 (held .arriving n chain)).store with freeList := free } }

/-- The first byte, the last of a block, the first of the next with a block free and with none, and the limit. -/
theorem witness_PayloadBytesAreStored :
    BytesCanonical (storing 0 [] [9]) ∧
    (∀ p ∈ [(0, [], [9]), (31, [9], []), (32, [9], [10]), (32, [9], []), (480, [9], [10])],
      (storing p.1 p.2.1 p.2.2).inbound.arrival.map (fun a => (a.seen, a.stop, a.handle)) =
        some (p.1, none, some 6) ∧
      ((storing p.1 p.2.1 p.2.2).record 6).chain = p.2.1 ∧ (storing p.1 p.2.1 p.2.2).store.freeList = p.2.2) ∧
    (31 % 32 ≠ 0 ∧ [(9 : Block)].length = 31 / 32 + 1 ∧ 32 % 32 = 0 ∧ [(9 : Block)].length = 32 / 32) ∧
    (receiving (openedFrame .reply)).inbound.arrival.isSome = true := by decide +kernel

/-- The header byte of the record expected, and of another, with a handle FREE and with none; a payload byte's
release; the body count at its first, its header's, its last without a release and its last of all. -/
theorem witness_PayloadBytesAreStored_in_a_frame :
    (let f : InFrame := { openedFrame .reply with count := 2, head := [0#8, 5#8], older := some 0#8, newer := some 5#8 }
     let s : State := { receiving f with inbound := { board.inbound with arrival := none } };
      s.resetHeld = false ∧ s.line.lineHeld = false ∧ s.line.rx = .frame f ∧ f.dest = .reply ∧ f.oversize = false ∧
      f.count < 485 ∧ s.exchange = some (standing .poll (.station 0) none .receiveReply) ∧
      (f.shiftPending = false ∧ 1#8 ≠ 0xE0#8 ∧ 1#8 ≠ 0xE1#8 ∧ 1#8 ≠ 0xE2#8) ∧ f.restarted = false ∧
      s.inbound.arrival = none ∧ 5#8 = (s.entry 0).address.getD 0#8 ∧ (1#8).extractLsb' 5 3 = 0#3 ∧
      (1#8).extractLsb' 0 4 = 1#4 ∧ (1#8).getLsbD 4 = (s.entry 0).rxExpect ∧ (s.record 5).state = .free ∧
      (∀ g : Handle, g.val < (5 : Handle).val → (s.record g).state ≠ .free) ∧
      (0x11#8).getLsbD 4 ≠ (s.entry 0).rxExpect) ∧
    (∀ h, ((lastHandle.setRecord 63 (held .ready 1 [])).record h).state ≠ .free) ∧
    (let f : InFrame := { openedFrame .reply with count := 484, older := some 1#8, newer := some 2#8, shiftPending := true };
      5 ≤ f.count ∧ f.count < 485 ∧ f.newer ≠ none ∧ f.older = some 1#8 ∧
      (f.shiftPending = true ∧ (0xEF#8 = 0xEF#8 ∨ 0xEF#8 = 0xEE#8 ∨ 0xEF#8 = 0xED#8) ∧ 0xE0#8 = 0xEF#8 ^^^ 0x0F#8)) ∧
    ((openedFrame .reply).count ≠ 2 ∧ (openedFrame .reply).count < 5) := by decide +kernel

/-- A transmission after its Marker. -/
def sending (isEnd stop : Bool) : Transmission :=
  { frame := { dest := 5#8, ctrl := 1#8, payload := .bytes [] }, current := 0xE0#8, isEnd := isEnd, divisor := 104#12
    coded := 0, shifted := none, accXor := 0#8, accSum := 0#8, accCount := 0#8, stopRequested := stop }

/-- An arrival's first byte with the free list as hardware reset leaves it. -/
def arrivingAfterReset : State :=
  { State.reset with
    store := { RecordStore.reset with
      descriptors := RecordStore.reset.descriptors.set 0 { held .arriving 0 [] with origin := 5#8 } }
    inbound := { arrival := some { handle := some 0, source := 5#8, seen := 0, stop := none }, list := [] } }

/-- RUN 0, both kinds of work ready with the flag ROUND, and the poll timer running. -/
theorem witness_AfterHardwareReset_choice :
    State.reset.host.run = false ∧
    (let s := inRound 0 member;
      s.exchange = none ∧ s.host.run = true ∧ (∀ i, ¬ ProbeDue s i) ∧ CommandReady s ∧ RoundReady s ∧
        s.arbiter.alternation = .round) ∧
    (after (.runStart 0#15) State.reset).arbiter.pollTimer.beats ≠ 0#8 := by decide +kernel

/-- CONTROLLER_RESET with a character in progress in ECHO, and in DRAIN with the transmitter QUIET. -/
theorem witness_AfterHardwareReset_line :
    (let s : State := { board with line := { board.line with tx := some (sending false false), rx := .echo } };
      exec .controllerReset s = .next (after .controllerReset s) ∧ s.resetHeld = false ∧
        (after .controllerReset s).line.tx ≠ none) ∧
    (exec .controllerReset (hearing .drain board) = .next (after .controllerReset (hearing .drain board)) ∧
      (after .controllerReset (hearing .drain board)).line.rx = .drain ∧
      (after .controllerReset (hearing .drain board)).line.tx = none ∧
      (after .controllerReset (hearing .drain board)).line.lineHeld = false) :=
  ⟨⟨exec_after (by decide +kernel), by decide +kernel, by decide +kernel⟩,
    exec_after (by decide +kernel), by decide +kernel, by decide +kernel, by decide +kernel⟩

/-- Every record FREE, whatever length an ALLOC names, and its least and its greatest length. -/
theorem witness_AfterHardwareReset_store :
    (∀ h, (State.reset.record h).state = .free) ∧
    (∀ (n : Word) (h : Handle), (called 0#16 0#16 n State.reset).record h = State.reset.record h) ∧
    (∀ n : Word, (called 0#16 0#16 n State.reset).param 2 = n) ∧ 1 ≤ (1#16).toNat ∧ (480#16).toNat ≤ 480 :=
  ⟨by decide +kernel, fun _ _ => rfl, fun _ => rfl, by decide, by decide⟩

/-- An arrival's first byte. -/
theorem witness_AfterHardwareReset_arrival :
    BytesCanonical arrivingAfterReset ∧ arrivingAfterReset.record 0 = { held .arriving 0 [] with origin := 5#8 } := by
  decide +kernel

theorem witness_AfterHardwareReset_freeList :
    (∀ n : Word, (called 0#16 0#16 n State.reset).store.freeList = List.finRange 512) ∧
    arrivingAfterReset.store.freeList = List.finRange 512 := by
  simp only [called, arrivingAfterReset, State.reset, RecordStore.reset, implies_true, and_self]

theorem witness_LineAndTimerHappenings :
    ({ board.line with lineHeld := true } : LineEngine).lineHeld = true ∧ board.line.lineHeld = false ∧
    ({ board.line with tx := some (sending false false) } : LineEngine).tx = some (sending false false) ∧
    ((sending true false).isEnd = true ∧ (sending false true).stopRequested = true) ∧
    ((echoing [1#8, 2#8] board).line.echoList.length < 3 ∧ 3 ≤ (echoing [1#8, 2#8, 3#8] board).line.echoList.length) ∧
    ((hearing .drain board).line.rx = .drain ∧ board.line.rx ≠ .drain ∧ board.line.tx = none) ∧
    (arbiterBoard.arbiter.pollTimer.beats ≠ 0#8 ∧ board.arbiter.pollTimer.beats = 0#8) := by decide +kernel

/-- The invariants' premises, at a state with stations, records and commands, and its next state. -/
theorem witness_invariants :
    let s : State := { board with pending := [.clearCounters] }
    (SetupInRange s ∧ RoundExcludesTimer s ∧ TurnKeptSound s) ∧ (RestraintFollowsMarks s ∧ BytesCanonical s) ∧
    (CoalescingFollowsCount s ∧ CommitmentBounded s) ∧ ListsSound s ∧ StoreSound s ∧ RecordsSound s ∧
    step s = .next (after .clearCounters { s with pending := [] }) := by
  refine ⟨by decide +kernel, by decide +kernel, by decide +kernel, board_listsSound, board_storeSound,
    ⟨board_storeSound, by decide +kernel, ?_, ?_, by decide +kernel⟩,
    show exec .clearCounters _ = _ from exec_after (by decide +kernel)⟩
  · intro f hf
    cases hf
  · intro a ha
    cases ha

end Sys2Proof.Tests
end

section
/-! PROOFS. What hardware reset leaves in every block, what CONTROLLER_RESET leaves in the arbiter and the line engine,
and what the first happenings after either reset do (R20, R78, R102, R134, R151, R171, R185). -/

namespace Sys2Proof.Machine

open Sys2Proof.Safety

/-! ### Beat timers (R62) -/

/-- Within a beat a running timer counts the character time in `passed` alone. -/
theorem BeatTimer.tick_within_beat (t : BeatTimer) (hrun : t.beats ≠ 0#8) (hp : t.passed.val + 1 < 64) :
    t.tick.beats = t.beats ∧ t.tick.passed.val = t.passed.val + 1 := by
  simp [BeatTimer.tick, hrun, hp]

/-- The end of a beat that is not the last takes one from the count. -/
theorem BeatTimer.tick_end_of_beat (t : BeatTimer) (hlast : 2 ≤ t.beats.toNat) (hp : t.passed.val = 63) :
    t.tick.beats.toNat = t.beats.toNat - 1 ∧ t.tick.passed = 0 := by
  have hrun : t.beats ≠ 0#8 := by rintro h; simp [h] at hlast
  have hone : t.beats ≠ 1#8 := by rintro h; simp [h] at hlast
  have hsub : (t.beats - 1#8).toNat = t.beats.toNat - 1 := by bv_omega
  simp [BeatTimer.tick, hrun, hone, hp, hsub]

/-- A timer loaded with `n` beats, after `m` of its 64 × n character times: the beats not yet wholly passed, and the
part of the beat in progress. -/
theorem BeatTimer.iterate_tick_load (n : Byte) (m : Nat) (hm : m < 64 * n.toNat) :
    (BeatTimer.tick^[m] (.load n)).beats.toNat = n.toNat - m / 64 ∧
      (BeatTimer.tick^[m] (.load n)).passed.val = m % 64 := by
  induction m with
  | zero => simp [BeatTimer.load]
  | succ m ih =>
    obtain ⟨hbeats, hpassed⟩ := ih (by omega)
    rw [Function.iterate_succ_apply']
    generalize BeatTimer.tick^[m] (.load n) = t at hbeats hpassed
    by_cases hp : m % 64 = 63
    · obtain ⟨hb, hz⟩ := t.tick_end_of_beat (by omega) (by omega)
      rw [hb, hz]
      constructor
      · omega
      · show 0 = _; omega
    · have hrun : t.beats ≠ 0#8 := by rintro h; simp [h] at hbeats; omega
      obtain ⟨hb, hz⟩ := t.tick_within_beat hrun (by omega)
      rw [hb, hz]
      omega

variable (s : State)

/-! ### The choice with both kinds of work ready (R65, R69, R78) -/

/-- A grant leaves the arbiter's fields to the choice that made it (R24). -/
@[simp] theorem State.grant_arbiter (kind : ExchangeKind) (place : Place) (slot : Option SlotId) :
    (s.grant kind place slot).arbiter = s.arbiter := by
  rw [s.grant_frame kind place slot]

/-- A grant of command work at an eligible place: the pointer goes beyond it, the flag turns to COMMAND, and the
exchange is with that place. -/
theorem State.grantCommand_of_placeReady (k : Fin 17) (hk : PlaceReady s k) :
    (s.grantCommand k).arbiter = s.arbiter.afterCommand k ∧
      ∃ x ∈ (s.grantCommand k).exchange, x.place = placeOfIndex k := by
  have helig := (s.placeEligible_iff k).mpr hk
  unfold State.placeEligible at helig
  unfold State.grantCommand
  cases hp : placeOfIndex k with
  | station i =>
    rw [hp] at helig
    obtain ⟨-, -, -, head, hhead, x, hx, -⟩ := (s.eligible_iff i).mp helig
    obtain ⟨rest, hlist⟩ := List.head?_eq_some_iff.mp hhead
    cases hsync : (s.entry i).syncNeeded <;> simp [hsync, hlist, Option.mem_def.mp hx]
  | broadcast =>
    rw [hp] at helig
    cases hlist : s.command.broadcastList with
    | nil => simp [hlist] at helig
    | cons head rest => simp

/-- A round with a station still to visit is not over, so the choice leaves it in progress (R73, R74). -/
theorem State.endFinishedRound_of_roundReady (h : RoundReady s) : s.endFinishedRound = s := by
  obtain ⟨-, -, i, hi, hvisit⟩ := h
  have hnext : s.nextVisit ≠ none := fun hnone => by
    have := s.nextVisit_none.mp hnone i hi
    rw [(s.visitable_iff i).mpr hvisit] at this
    cases this
  simp [State.endFinishedRound, State.roundOver, hnext]

/-- With no probe due, both kinds of work ready and the flag at ROUND, command work is granted (R65). -/
theorem State.makeGrant_of_bothReady (hprobe : ∀ i, ¬ ProbeDue s i) (hcommand : CommandReady s)
    (hround : RoundReady s) (hflag : s.arbiter.alternation = .round) :
    ∃ k, PlaceReady s k ∧ s.makeGrant = s.grantCommand k := by
  rcases s.makeGrant_cases with ⟨i, hi, -⟩ | ⟨-, ⟨k, hk, -, hgrant⟩ | ⟨i, -, hturn, -⟩ | ⟨-, hnone, -⟩⟩
  · obtain ⟨hdue, -⟩ := (s.probePick_some i).mp hi
    exact absurd ((s.probeDue_iff i).mp hdue) (hprobe i)
  · obtain ⟨d, -, helig, -⟩ := (s.commandPick_some k).mp hk
    exact ⟨k, (s.placeEligible_iff k).mp helig, hgrant⟩
  · obtain ⟨k, hk⟩ := hcommand
    cases hpick : s.commandPick with
    | none =>
      have := s.commandPick_none.mp hpick k
      rw [(s.placeEligible_iff k).mpr hk] at this
      cases this
    | some j => rw [hturn j hpick] at hflag; cases hflag
  · exact absurd hround (s.roundPick_none_iff.mp hnone)

/-- The place of the walk, said of its number. -/
theorem placeOfIndex_cases (k : Fin 17) :
    (∃ i : EntryId, i.val = k.val ∧ placeOfIndex k = .station i) ∨ (k = 16 ∧ placeOfIndex k = .broadcast) := by
  cases hp : placeOfIndex k with
  | station i => exact .inl ⟨i, ((placeOfIndex_station k i).mp hp).symm, rfl⟩
  | broadcast => exact .inr ⟨(placeOfIndex_broadcast k).mp hp, rfl⟩

/-- No choice is made while RUN is 0 (R64). -/
theorem State.callChoice_of_stopped (h : s.host.run = false) : s.callChoice = s := by
  rcases s.callChoice_cases with ⟨-, hrun, -⟩ | ⟨-, e⟩
  · rw [h] at hrun; cases hrun
  · exact e

/-- The choice with both kinds of work ready and the flag at ROUND grants command work (R65, R78). -/
theorem State.callChoice_of_bothReady (hx : s.exchange = none) (hrun : s.host.run = true)
    (hprobe : ∀ i, ¬ ProbeDue s i) (hcommand : CommandReady s) (hround : RoundReady s)
    (hflag : s.arbiter.alternation = .round) :
    ∃ k, PlaceReady s k ∧
      s.callChoice.arbiter = { s.arbiter with pointer := k + 1, alternation := .command } ∧
      ∃ x ∈ s.callChoice.exchange,
        (∃ i : EntryId, i.val = k.val ∧ x.place = .station i) ∨ (k = 16 ∧ x.place = .broadcast) := by
  obtain ⟨k, hk, hgrant⟩ := s.makeGrant_of_bothReady hprobe hcommand hround hflag
  have hchoice : s.callChoice = s.grantCommand k := by
    rw [← hgrant]
    simp [State.callChoice, State.choice, hx, hrun, s.endFinishedRound_of_roundReady hround]
  obtain ⟨harb, x, hmem, hplace⟩ := s.grantCommand_of_placeReady k hk
  rw [hchoice]
  exact ⟨k, hk, harb, x, hmem, by rw [hplace]; exact placeOfIndex_cases k⟩

/-- The running out of a running poll period timer begins a round (R72). -/
theorem happens_pollPeriodExpiry (h : s.resetHeld = false) (hrun : s.arbiter.pollTimer.beats ≠ 0#8) :
    Happens .pollPeriodExpiry s { s with arbiter := { s.arbiter with
      pollTimer := { beats := 0#8, passed := 0 }, roundInProgress := true, roundPosition := 0 } } :=
  happens_of_effect State.pollPeriodUp h rfl (by
    simp [State.pollPeriodUp, BeatTimer.running, hrun, Arbiter.beginRound, BeatTimer.stopped])

/-! ### CONTROLLER_RESET (R170) -/

/-- CONTROLLER_RESET's whole next state: with RUN 0 and the line free its happening ends with nothing. -/
theorem exec_controllerReset (h : s.resetHeld = false) :
    exec .controllerReset s = .next { s.controllerReset.accept 0#6 with lastClose := none } := by
  have hsettle : (s.controllerReset.accept 0#6).settle = s.controllerReset.accept 0#6 :=
    State.settle_of_stopped _ rfl rfl
  calc exec .controllerReset s
      = .next (s.controllerReset.accept 0#6).finishCommand :=
        takeCommand_ok s controllerResetCommand s.controllerReset 0#6 h rfl
    _ = _ := by rw [State.finishCommand_frame, hsettle]

/-- The receiver after CONTROLLER_RESET (R102). -/
theorem Receiver.afterReset_eq (r : Receiver) :
    r.afterReset = if r = .echo ∨ r = .drain then .drain else .hunt := by
  cases r <;> simp [Receiver.afterReset]

/-- What CONTROLLER_RESET leaves in the arbiter, the table and the line engine (R78, R102). -/
theorem controllerReset_leaves (h : s.resetHeld = false) : ∃ t, exec .controllerReset s = .next t ∧
    t.arbiter = { pointer := 0, alternation := .round, roundInProgress := false, roundPosition := 0
                  pollTimer := { beats := 0#8, passed := 0 }, pollPeriod := s.arbiter.pollPeriod } ∧
    t.table.holdBackoff = s.table.holdBackoff ∧ t.host.run = false ∧ t.exchange = none ∧
    (∀ i, t.entry i = Entry.vacant) ∧
    t.line =
      { tx := s.line.tx.map fun y => { y with stopRequested := true }
        echoList := []
        rx := if s.line.rx = .echo ∨ s.line.rx = .drain then .drain else .hunt
        lineHeld := t.line.lineHeld
        guardTimer := 0#4, replyTimer := 0#8, gapTimer := 0#4
        rate := s.line.rate, guardTime := s.line.guardTime, gapTime := s.line.gapTime
        replyTimeout := s.line.replyTimeout
        stray := 0#16, coding := 0#16, check := 0#16, echo := 0#16 } := by
  refine ⟨_, exec_controllerReset s h, rfl, rfl, rfl, rfl, State.reset_entry, ?_⟩
  rw [← Receiver.afterReset_eq]
  rfl

/-! ### The first happenings after either reset -/

/-- What hardware reset and CONTROLLER_RESET have in common: RESET high, RUN 0, no exchange, no round and no poll timer;
a transmitter that has yet to finish its character has a stop request, and the receiver is in HUNT or DRAIN. -/
structure JustReset (t : State) : Prop where
  resetHeld : t.resetHeld = false
  run : t.host.run = false
  exchange : t.exchange = none
  roundInProgress : t.arbiter.roundInProgress = false
  pollTimer : t.arbiter.pollTimer = .stopped
  tx : ∀ y ∈ t.line.tx, y.stopRequested = true
  rx : t.line.rx = .hunt ∨ t.line.rx = .drain

theorem State.reset_justReset : JustReset State.reset :=
  ⟨rfl, rfl, rfl, rfl, rfl, nofun, .inl rfl⟩

theorem exec_controllerReset_justReset {s t : State} (h : s.resetHeld = false)
    (ht : exec .controllerReset s = .next t) : JustReset t := by
  rw [exec_controllerReset s h] at ht
  cases ht
  refine ⟨h, rfl, rfl, rfl, rfl, ?_, ?_⟩
  · intro y hy
    obtain ⟨x, -, rfl⟩ := Option.map_eq_some_iff.mp hy
    rfl
  · show s.line.rx.afterReset = .hunt ∨ s.line.rx.afterReset = .drain
    cases s.line.rx <;> simp [Receiver.afterReset]

/-- With no round in progress and the timer stopped, RUN loads the timer with the period, 0 leaving it stopped (R75). -/
theorem Arbiter.startPeriod_of_stopped (a : Arbiter) (hround : a.roundInProgress = false)
    (htimer : a.pollTimer = .stopped) : a.startPeriod = { a with pollTimer := .load a.pollPeriod } := by
  by_cases hperiod : a.pollPeriod = 0#8
  · have hload : BeatTimer.load a.pollPeriod = a.pollTimer := by rw [hperiod, htimer]; rfl
    have hkept : a.startPeriod = a := by simp [Arbiter.startPeriod, hperiod]
    rw [hkept, hload]
  · simp [Arbiter.startPeriod, hround, htimer, hperiod, BeatTimer.running, BeatTimer.stopped]

namespace JustReset

variable {t : State} (ht : JustReset t)
include ht

/-- The write of RUN loads the poll timer with the period, 0 leaving it stopped (R75). -/
theorem happens_runStart (w : BitVec 15) :
    Happens (.runStart w) t
      { t with
        host := { t.host with run := true }
        arbiter := { t.arbiter with pollTimer := { beats := t.arbiter.pollPeriod, passed := 0 } } } := by
  have hbit : (w ++ 1#1).getLsbD 0 = true := Laws.BusWrite.getLsbD_zero_append w 1#1
  have hstart := t.arbiter.startPeriod_of_stopped ht.roundInProgress ht.pollTimer
  refine happens_of_effect (fun t => t.writeControl (w ++ 1#1)) ht.resetHeld rfl ?_
  simp only [State.writeControl, hbit, ht.run, hstart, Bool.not_false, Bool.and_self, if_true]
  rfl

/-- The character in progress is the last of its transmission (R87, R102). -/
theorem happens_frameSent (htx : t.line.tx ≠ none) :
    Happens .frameSent t { t with line := { t.line with tx := none } } := by
  obtain ⟨y, hy⟩ := Option.ne_none_iff_exists'.mp htx
  refine happens_of_effect State.finishSending ht.resetHeld rfl ?_
  simp [State.finishSending, hy, ht.tx y hy]

/-- DRAIN ends in HUNT once the transmitter is QUIET (R89, R90). -/
theorem happens_drainEnd (hrx : t.line.rx = .drain) (htx : t.line.tx = none) :
    Happens .drainEnd t { t with line := { t.line with rx := .hunt } } := by
  refine happens_of_effect State.drainOver ht.resetHeld rfl ?_
  simp [State.drainOver, State.setReceiver, hrx, htx]

/-- The first character loads the guard timer; a good Marker found in HUNT opens a STRAY frame, since no reply is
awaited (R80, R91, R97). -/
theorem happens_characterReceived (hheld : t.line.lineHeld = false) (v : Byte) (p st : Bool) :
    let heard : LineEngine := { t.line with guardTimer := t.line.guardTime, lineHeld := !st }
    Happens (.characterReceived v p st) t
      { t with line :=
        if t.line.rx = .hunt ∧ v = 0xE0#8 ∧ p = evenParity v ∧ st = true then
          { heard with gapTimer := t.line.gapTime, rx := .frame (openedFrame .stray) }
        else heard } := by
  refine happens_of_effect (fun u => u.receive v p st) ht.resetHeld rfl ?_
  rcases ht.rx with hrx | hrx
  · have hopen : goodCharacter v p st = true ∧ v = Config.marker ↔ v = 0xE0#8 ∧ p = evenParity v ∧ st = true := by
      rw [goodCharacter_iff, and_comm, Config.marker]
    simp only [State.receive, hheld, hrx, hopen, Bool.false_eq_true, if_false, true_and]
    split
    · simp only [State.openFrame, State.loadGuard, ht.exchange]
      rfl
    · rfl
  · simp only [State.receive, hheld, hrx, Bool.false_eq_true, if_false]
    rfl

end JustReset

/-! ### The Record Store with every record FREE (R134) -/

/-- Every block is on the free list after reset, in order of number (R134). -/
theorem State.reset_freeList : State.reset.store.freeList = List.finRange 512 := by
  simp only [State.reset, RecordStore.reset]

/-- The data window neither reads a FREE record nor stores in one (R177, R178). -/
theorem State.window_of_free (h : Handle) (hsel : handleOfByte s.host.winSelect = some h)
    (hfree : (s.record h).state = .free) : s.windowRead = none ∧ s.windowTarget = none := by
  simp [State.windowRead, State.windowRecord, State.windowTarget, hsel, hfree]

/-- With every record FREE no selection reads or stores (R177, R178). -/
theorem State.window_of_allFree (hfree : ∀ h, (s.record h).state = .free) :
    s.windowRead = none ∧ s.windowTarget = none := by
  cases hsel : handleOfByte s.host.winSelect with
  | none => simp [State.windowRead, State.windowRecord, State.windowTarget, hsel]
  | some h => exact s.window_of_free h hsel (hfree h)

/-- The bytes an accepted ALLOC leaves (R123). -/
theorem State.bytes_allocate (h : Handle) (n : Nat) :
    (s.allocate h n).store.bytes = zeroBlocks s.store.bytes (s.store.freeList.take (blocksFor n)) := by
  simp [State.allocate, State.takeBlocks_eq]

/-- Every byte of the record an accepted ALLOC makes is 0 (R123, R134). -/
theorem State.readByte_allocate (h : Handle) (n : Nat) (b : Block) (hb : b ∈ s.store.freeList.take (blocksFor n))
    (j : Fin 32) : readByte (s.allocate h n).store.bytes (32 * b.val + j.val) = 0#8 := by
  have hblock : (32 * b.val + j.val) / Config.blockBytes = b.val := by
    have := j.isLt
    simp only [Config.blockBytes]
    omega
  rw [State.bytes_allocate, readByte_zeroBlocks, hblock, if_pos (List.mem_map_of_mem hb)]
  rfl

/-- With every record FREE and every block free, an ALLOC in range takes handle 0 (R122, R123). -/
theorem allocCommand_of_allFree (hfree : ∀ h, (s.record h).state = .free)
    (hlist : s.store.freeList = List.finRange 512) (hmin : 1 ≤ (s.param 2).toNat) (hmax : (s.param 2).toNat ≤ 480) :
    allocCommand s = .ok (s.allocate 0 (s.param 2).toNat, 0#6) := by
  have hhandle : s.lowestFreeHandle = some 0 :=
    (s.lowestFreeHandle_some 0).mpr ⟨hfree 0, fun g hg => absurd hg (Nat.not_lt_zero _)⟩
  have hrange : ¬ (s.paramLength = 0 ∨ Config.maxPayload < s.paramLength) := by
    simp only [State.paramLength, Config.maxPayload]
    omega
  have hblocks : ¬ s.freeCount < blocksFor s.paramLength := by
    simp only [State.freeCount, hlist, List.length_finRange, State.paramLength, blocksFor, Config.blockBytes]
    omega
  simp only [allocCommand, if_neg hrange, hhandle, if_neg hblocks]
  rfl

/-- The first ALLOC after reset: handle 0, its blocks from 0 upward, every byte of them 0 (R123, R134). -/
theorem accepts_alloc_of_allFree (h : s.resetHeld = false) (hfree : ∀ h, (s.record h).state = .free)
    (hlist : s.store.freeList = List.finRange 512) (hmin : 1 ≤ (s.param 2).toNat) (hmax : (s.param 2).toNat ≤ 480) :
    ∃ t, Accepts .alloc s t 0#6 ∧
      (t.record 0).chain = (List.finRange 512).take (((s.param 2).toNat + 31) / 32) ∧
      ∀ b ∈ (t.record 0).chain, ∀ j : Fin 32, readByte t.store.bytes (32 * b.val + j.val) = 0#8 := by
  have hchain : ((s.allocate 0 (s.param 2).toNat).record 0).chain =
      s.store.freeList.take (blocksFor (s.param 2).toNat) := by
    rw [State.record_allocate, if_pos rfl]
  refine ⟨s.allocate 0 (s.param 2).toNat,
    accepts_of_ok allocCommand h rfl (allocCommand_of_allFree s hfree hlist hmin hmax), ?_, ?_⟩
  · rw [hchain, hlist]
    rfl
  · rw [hchain]
    exact s.readByte_allocate 0 _

/-! ### An arrival's first byte (R134, R138) -/

/-- The record once the arrival's next byte is stored: one byte longer, its chain as it was (R138). -/
theorem State.record_storeArrivalByte (a : Arrival) (h : Handle) (v : Byte) :
    (s.storeArrivalByte a h v).record h = { s.record h with length := (s.record h).length + 1 } := by
  simp [State.storeArrivalByte]

/-- The bytes once the arrival's next byte is stored (R138). -/
theorem State.bytes_storeArrivalByte (a : Arrival) (h : Handle) (v : Byte) :
    (s.storeArrivalByte a h v).store.bytes = (s.writeRecordByte h a.seen v).store.bytes := rfl

/-- The record once a block has joined its chain (R119). -/
theorem State.record_appendBlock (h : Handle) (b : Block) :
    (s.appendBlock h b).record h = { s.record h with chain := (s.record h).chain ++ [b] } := by
  simp [State.appendBlock]

theorem State.bytes_appendBlock (h : Handle) (b : Block) :
    (s.appendBlock h b).store.bytes = s.store.bytes := by
  simp [State.appendBlock, State.takeBlocks_eq]

/-- The first byte of an arrival into the blocks as reset leaves them: it takes block 0 and is its first byte (R138). -/
theorem State.takePayloadByte_first (a : Arrival) (h : Handle) (limit : Nat) (v : Byte) (hbytes : BytesCanonical s)
    (hlist : s.store.freeList = List.finRange 512) (ha : s.inbound.arrival = some a) (hhandle : a.handle = some h)
    (hstop : a.stop = none) (hseen : a.seen = 0) (hlimit : 0 < limit)
    (hrec : s.record h = { state := .arriving, length := 0, chain := [], origin := a.source, keep := false }) :
    let t := s.takePayloadByte limit v
    (t.record h).chain = [0] ∧ (t.record h).length = 1 ∧ readByte t.store.bytes 0 = v := by
  have hhead : s.store.freeList = 0 :: (List.finRange 511).map Fin.succ := by
    rw [hlist, List.finRange_succ]
  have htake : s.takePayloadByte limit v = (s.appendBlock h 0).storeArrivalByte a h v := by
    simp only [State.takePayloadByte, ha, hstop, hhandle, hseen, hhead, Nat.not_le.mpr hlimit, Nat.zero_mod, if_true,
      if_false]
  have hblock : (s.appendBlock h 0).record h =
      { state := .arriving, length := 0, chain := [0], origin := a.source, keep := false } := by
    rw [State.record_appendBlock, hrec]
    rfl
  have haddress : (s.appendBlock h 0).recordAddress h a.seen = some 0 := by
    rw [State.recordAddress, hblock, hseen]
    rfl
  have hread : readByte ((s.appendBlock h 0).writeRecordByte h a.seen v).store.bytes 0 = v := by
    rw [State.readByte_writeRecordByte _ _ _ _ _ (by rw [State.bytes_appendBlock]; exact hbytes), if_pos haddress]
  rw [htake]
  simp [State.record_storeArrivalByte, State.bytes_storeArrivalByte, State.record_appendBlock, hrec, hread]

/-! ### The first completion and the registers (R171, R185) -/

/-- The threshold is 1 after reset, so the first completion sets the flag (R165, R171). -/
theorem State.reset_evalPosting_ready (c : Completion) :
    ({ State.reset.queue with entries := [c] } : CompletionQueue).evalPosting.ready = true := by
  have hthreshold : ({ State.reset.queue with entries := [c] } : CompletionQueue).atThreshold = true := rfl
  rw [CompletionQueue.evalPosting_ready, hthreshold, Bool.or_true]

/-- WIN_SELECT 0, as reset leaves it, selects handle 0 (R176, R185). -/
theorem State.window_of_selectZero (hsel : s.host.winSelect = 0#8) (hfree : (s.record 0).state = .free) :
    s.windowRead = none ∧ s.windowTarget = none :=
  s.window_of_free 0 ((handleOfByte_some _ _).mpr (by rw [hsel]; rfl)) hfree

/-- What every register returns after hardware reset, offsets 0 to 31 in order (R172, R185). -/
theorem State.reset_readRegister :
    ((List.range 32).map fun k => State.reset.readRegister (BitVec.ofNat 5 k)) =
      [0x3216#16, 0#16, 0#16, 0#16, 0#16, 0#16, 0#16, 0#16, 0#16, 0#16, 0#16, 0#16, 0#16, 0#16, 0#16, 0#16,
        0#16, 0#16, 0#16, 0#16, 0#16, 0#16, 0#16, 0x0200#16, 0x0068#16, 0x0402#16, 0x0014#16, 0x0020#16,
        0x2010#16, 0x0004#16, 0x0001#16, 0#16] := by
  decide +kernel

/-! ### The statement -/

/-- Settles O5: the values reset leaves are read off `State.reset`, and the later behaviour is the lemmas above. -/
theorem afterHardwareReset : Obligations.AfterHardwareReset := by
  unfold Obligations.AfterHardwareReset
  have justReset : ∀ t : State,
      (t = State.reset ∨ ∃ s, s.resetHeld = false ∧ exec .controllerReset s = .next t) → JustReset t := by
    rintro t (rfl | ⟨s, hheld, hexec⟩)
    · exact State.reset_justReset
    · exact exec_controllerReset_justReset hheld hexec
  exact ⟨
    -- R20
    fun i => ⟨State.reset_entry i, rfl, rfl, rfl, rfl, rfl, rfl, rfl, rfl, rfl, rfl, rfl, rfl, rfl, rfl, rfl, rfl,
      rfl, rfl, rfl, rfl, rfl⟩,
    rfl, rfl,
    -- R78
    rfl, rfl, State.callChoice_of_stopped, State.callChoice_of_bothReady,
    fun m hm => (BeatTimer.iterate_tick_load 32#8 m hm).1, happens_pollPeriodExpiry,
    -- R102
    rfl, rfl, fun _ => ⟨rfl, rfl⟩,
    -- R78 and R102 of CONTROLLER_RESET, and after either reset
    controllerReset_leaves,
    fun t ht => ⟨(justReset t ht).happens_runStart, (justReset t ht).happens_frameSent,
      (justReset t ht).happens_drainEnd, (justReset t ht).happens_characterReceived⟩,
    -- R134
    State.reset_record, State.reset_freeList, by rw [State.reset_freeList, List.length_finRange], rfl, rfl, rfl,
    State.window_of_allFree, accepts_alloc_of_allFree, State.takePayloadByte_first,
    -- R151
    rfl, rfl, rfl,
    -- R171
    State.reset_slot, rfl, rfl, rfl, rfl, rfl, rfl, rfl, State.reset_evalPosting_ready,
    -- R185
    rfl, rfl, rfl, rfl, rfl, rfl, rfl, State.window_of_selectZero, State.reset_readRegister⟩

end Sys2Proof.Machine
end

section
/-! PROOFS. Which stations one command can bring to FAILED, and the Lost Summary that follows it (R107, R109, R112):
only the transition to FAILED of the station on the line sets a bit, and everything else leaves the losses alone. -/

namespace Sys2Proof.Machine

open Sys2Proof.Safety

variable {s t u : State}

/-! ### What an update does to the losses -/

/-- Every station's state, the Lost Summary and the STATION_LOST cause are as they were. -/
structure SameStanding (s t : State) : Prop where
  lostSummary : t.table.lostSummary = s.table.lostSummary
  state : ∀ n, (t.entry n).state = (s.entry n).state
  stationLost : t.host.stationLost = s.host.stationLost

/-- No station has come to FAILED, and the Lost Summary is as it was. -/
structure NoLoss (s t : State) : Prop where
  lostSummary : t.table.lostSummary = s.table.lostSummary
  failed : ∀ n, (t.entry n).state = .failed → (s.entry n).state = .failed

/-- The station of entry `e` has been lost (R107, R109), and no other has come to FAILED. -/
structure LosesStation (s t : State) (e : EntryId) : Prop where
  lostSummary : t.table.lostSummary = s.table.lostSummary ||| (1#16 <<< e.val)
  state : (t.entry e).state = .failed
  stationLost : t.host.stationLost = true
  failed : ∀ n, n ≠ e → (t.entry n).state = .failed → (s.entry n).state = .failed

/-- No station is lost but that of the place, which may have been. -/
def LosesAtMost (p : Option Place) (s t : State) : Prop :=
  NoLoss s t ∨ ∃ e, p = some (.station e) ∧ LosesStation s t e

/-- The place of the exchange in flight. -/
def State.linePlace (s : State) : Option Place := s.exchange.map Exchange.place

theorem SameStanding.refl (s : State) : SameStanding s s := ⟨rfl, fun _ => rfl, rfl⟩

theorem SameStanding.trans (h : SameStanding s t) (k : SameStanding t u) : SameStanding s u :=
  ⟨k.lostSummary.trans h.lostSummary, fun n => (k.state n).trans (h.state n), k.stationLost.trans h.stationLost⟩

theorem SameStanding.noLoss (h : SameStanding s t) : NoLoss s t :=
  ⟨h.lostSummary, fun n hn => h.state n ▸ hn⟩

theorem SameStanding.losesAtMost (h : SameStanding s t) (p : Option Place) : LosesAtMost p s t := .inl h.noLoss

theorem NoLoss.trans (h : NoLoss s t) (k : NoLoss t u) : NoLoss s u :=
  ⟨k.lostSummary.trans h.lostSummary, fun n hn => h.failed n (k.failed n hn)⟩

theorem NoLoss.trans_same (h : NoLoss s t) (k : SameStanding t u) : NoLoss s u := h.trans k.noLoss

theorem LosesAtMost.trans_same {p : Option Place} (h : LosesAtMost p s t) (k : SameStanding t u) :
    LosesAtMost p s u := by
  rcases h with h | ⟨e, hp, h⟩
  · exact .inl (h.trans_same k)
  · exact .inr ⟨e, hp, k.lostSummary.trans h.lostSummary, (k.state e).trans h.state,
      k.stationLost.trans h.stationLost, fun n hne hn => h.failed n hne (k.state n ▸ hn)⟩

theorem SameStanding.trans_loses {p : Option Place} (h : SameStanding s t) (k : LosesAtMost p t u) :
    LosesAtMost p s u := by
  rcases k with k | ⟨e, hp, k⟩
  · exact .inl (h.noLoss.trans k)
  · exact .inr ⟨e, hp, h.lostSummary ▸ k.lostSummary, k.state, k.stationLost,
      fun n hne hn => h.noLoss.failed n (k.failed n hne hn)⟩

/-- The stations stand as they did where the Station Table is untouched and STATION_LOST is as it was. -/
theorem SameStanding.of_table (htable : t.table = s.table) (hcause : t.host.stationLost = s.host.stationLost) :
    SameStanding s t :=
  ⟨by rw [htable], fun n => by rw [State.entry, htable, State.entry], hcause⟩

/-- No station is lost where the Station Table is untouched. -/
theorem NoLoss.of_table (htable : t.table = s.table) : NoLoss s t :=
  ⟨by rw [htable], fun n hn => by rwa [State.entry, htable] at hn⟩

/-- Completing commands changes no station's state and loses none. -/
theorem SameButCompletions.sameStanding (h : SameButCompletions s t) : SameStanding s t :=
  ⟨h.lostSummary, fun n => by rw [h.entry n], by rw [h.host]⟩

theorem SameButStore.sameStanding (h : SameButStore s t) : SameStanding s t := h.completions.sameStanding

theorem State.setLine_sameStanding (s : State) (l : LineEngine) : SameStanding s { s with line := l } :=
  .of_table rfl rfl

theorem State.setArbiter_sameStanding (s : State) (a : Arbiter) : SameStanding s { s with arbiter := a } :=
  .of_table rfl rfl

theorem State.setStore_sameStanding (s : State) (m : RecordStore) : SameStanding s { s with store := m } :=
  .of_table rfl rfl

theorem State.setInbound_sameStanding (s : State) (i : InboundPath) : SameStanding s { s with inbound := i } :=
  .of_table rfl rfl

theorem State.setLastClose_sameStanding (s : State) (c : Option Close) : SameStanding s { s with lastClose := c } :=
  .of_table rfl rfl

theorem State.setResult_sameStanding (s : State) (r : CmdResult) :
    SameStanding s { s with command := { s.command with result := r } } :=
  .of_table rfl rfl

theorem State.setExchange_sameStanding (s : State) (x : Option Exchange) : SameStanding s (s.setExchange x) :=
  .of_table rfl rfl

/-- An entry written with its state as it was. -/
theorem State.setEntry_sameStanding (s : State) (e : EntryId) (E : Entry) (hE : E.state = (s.entry e).state) :
    SameStanding s (s.setEntry e E) := by
  refine ⟨rfl, fun n => ?_, rfl⟩
  rw [State.entry_setEntry]
  split
  · next h => rw [hE, h]
  · rfl

/-- An entry written that is not FAILED. -/
theorem State.setEntry_noLoss (s : State) (e : EntryId) (E : Entry) (hE : E.state ≠ .failed) :
    NoLoss s (s.setEntry e E) := by
  refine ⟨rfl, fun n hn => ?_⟩
  rw [State.entry_setEntry] at hn
  split at hn
  · exact absurd hn hE
  · exact hn

/-- Every entry changed, each with its state as it was. -/
theorem State.mapEntries_state (s : State) (f : Entry → Entry) (hf : ∀ e, (f e).state = e.state) (n : EntryId) :
    (State.entry { s with table := { s.table with entries := s.table.entries.map f } } n).state =
      (s.entry n).state := by
  simp [State.entry, hf]

/-! ### Completions and the transition to FAILED -/

theorem State.completeHead_sameStanding (s : State) (i : SlotId) (o : Outcome) (d : Byte) (k : Nat)
    (g : Option Handle) : SameStanding s (s.completeHead i o d k g) := by
  have hone := (s.complete_same i o d k g).sameStanding
  unfold State.completeHead
  split
  · exact .refl s
  · split
    · exact hone.trans (State.foldl_complete_same _ (fun _ => (.cancelled, 0#8, 0)) _).sameStanding
    · exact hone

/-- The transition to FAILED (R107, R109). -/
theorem State.loseStation_loses (s : State) (e : EntryId) (b : Bool) : LosesStation s (s.loseStation e b) e := by
  have hdone := (s.completeAll_same e (s.lossOutcome e b)).sameStanding
  unfold State.loseStation
  generalize s.completeAll e (s.lossOutcome e b) = done at hdone
  refine ⟨?_, ?_, rfl, fun n hne hn => ?_⟩
  · show done.table.lostSummary ||| _ = _
    rw [hdone.lostSummary]
  · show ((done.setEntry e _).entry e).state = _
    rw [State.entry_setEntry, if_pos rfl]
    rfl
  · change ((done.setEntry e _).entry n).state = _ at hn
    rw [State.entry_setEntry, if_neg (Ne.symm hne)] at hn
    exact hdone.noLoss.failed n hn

theorem Entry.count_state (e : Entry) (o : AttemptOutcome) : (e.count o).state = e.state := by
  cases o <;> rfl

/-- An attempt's outcome reported loses no station but the one addressed (R29, R104, R107). -/
theorem State.report_loses (s : State) (p : Place) (o : AttemptOutcome) :
    LosesAtMost (some p) s (s.report p o) := by
  rcases s.report_cases p o with ⟨-, h⟩ | ⟨e, rfl, ⟨-, -, h⟩ | ⟨-, h⟩⟩ <;> rw [h]
  · exact (SameStanding.refl s).losesAtMost _
  · exact (s.setEntry_sameStanding e _ (Entry.count_state _ o)).trans_loses
      (.inr ⟨e, rfl, State.loseStation_loses _ e false⟩)
  · exact (s.setEntry_sameStanding e _ (Entry.count_state _ o)).losesAtMost _

/-- An outcome that is no failed attempt loses no station (R104). -/
theorem State.report_sameStanding (s : State) (p : Place) (o : AttemptOutcome) (ho : o.failed = false) :
    SameStanding s (s.report p o) := by
  rcases s.report_cases p o with ⟨-, h⟩ | ⟨e, rfl, ⟨hf, -⟩ | ⟨-, h⟩⟩
  · rw [h]; exact .refl s
  · rw [ho] at hf; cases hf
  · rw [h]; exact s.setEntry_sameStanding e _ (Entry.count_state _ o)

/-! ### The end of an attempt -/

theorem State.closePending_sameStanding (s : State) (x : Exchange) : SameStanding s (s.closePending x) :=
  (s.requeueRecord_sameButStore x.slot).sameStanding.trans (.of_table rfl rfl)

theorem State.closeDone_sameStanding (s : State) (x : Exchange) (o : Outcome) (d : Byte) (k : Nat)
    (g : Option Handle) : SameStanding s (s.closeDone x o d k g) := by
  unfold State.closeDone
  split
  · exact (s.completeHead_sameStanding _ o d k g).trans (.of_table rfl rfl)
  · exact .of_table rfl rfl

theorem State.failAttempt_loses (s : State) (x : Exchange) (o : AttemptOutcome) :
    LosesAtMost (some x.place) s (s.failAttempt x o) := by
  have htold := s.report_loses x.place o
  rcases s.failAttempt_cases x o with ⟨-, h⟩ | ⟨-, -, h⟩ | ⟨-, h⟩ | ⟨-, h⟩ <;> rw [h]
  · exact htold.trans_same (.of_table rfl rfl)
  · exact htold.trans_same (State.closeDone_sameStanding _ x _ _ _ _)
  · exact htold.trans_same (State.closePending_sameStanding _ x)
  · exact htold.trans_same (.of_table rfl rfl)

theorem State.completeDecision_sameStanding (s : State) (x : Exchange) : SameStanding s (s.completeDecision x) := by
  unfold State.completeDecision
  split
  · exact s.completeHead_sameStanding _ _ _ _ _
  · exact .refl s

theorem State.failAnswer_loses (s : State) (x : Exchange) : LosesAtMost (some x.place) s (s.failAnswer x) :=
  (s.completeDecision_sameStanding x).trans_loses
    ((State.report_loses _ x.place .echo).trans_same (.of_table rfl rfl))

/-- The place on the line, the exchange in flight being known. -/
theorem State.linePlace_of_exchange {x : Exchange} (h : s.exchange = some x) : s.linePlace = some x.place := by
  rw [State.linePlace, h, Option.map_some]

theorem State.echoComplete_sameStanding (s : State) : SameStanding s s.echoComplete := by
  unfold State.echoComplete
  split
  · next x _ =>
    split
    · split
      · exact s.closeDone_sameStanding x _ _ _ _
      · exact .of_table rfl rfl
    · exact (s.completeDecision_sameStanding x).trans (.of_table rfl rfl)
    all_goals exact .refl s
  · exact .refl s

theorem State.echoFailed_loses (s : State) : LosesAtMost s.linePlace s s.echoFailed := by
  rcases s.echoFailed_cases with ⟨x, hx, -, h⟩ | ⟨x, hx, -, h⟩ | ⟨-, h⟩ <;> rw [h]
  · rw [State.linePlace_of_exchange hx]; exact s.failAttempt_loses x .echo
  · rw [State.linePlace_of_exchange hx]; exact s.failAnswer_loses x
  · exact (SameStanding.refl s).losesAtMost _

theorem State.echoFault_loses (s : State) : LosesAtMost s.linePlace s s.echoFault := by
  rw [State.echoFault_eq]
  exact (s.setLine_sameStanding _).trans_loses (State.echoFailed_loses _)

/-! ### Replies -/

theorem State.discardArrival_sameStanding (s : State) : SameStanding s s.discardArrival := by
  rcases s.discardArrival_cases with ⟨-, h⟩ | ⟨_, -, -, h⟩ | ⟨_, g, -, -, h⟩ <;> rw [h]
  · exact .refl s
  · exact .of_table rfl rfl
  · exact (s.freeRecord_sameButStore g).sameStanding.trans (.of_table rfl rfl)

theorem State.actOnVerdict_sameStanding (s : State) (v : Verdict) (k : Nat) :
    SameStanding s (s.actOnVerdict v k) := by
  unfold State.actOnVerdict
  split
  · exact .of_table rfl rfl
  all_goals exact s.discardArrival_sameStanding

theorem State.decideData_sameStanding (s : State) (x : Exchange) (e : EntryId) (h : Header) (k : Nat) :
    SameStanding s (s.decideData x e h k) := by
  unfold State.decideData
  exact (s.report_sameStanding x.place .ok rfl).trans <|
    (State.setEntry_sameStanding _ e (Entry.afterVerdict _ _) rfl).trans <|
    (State.actOnVerdict_sameStanding _ _ k).trans (State.setExchange_sameStanding _ _)

theorem State.flipTx_sameStanding (s : State) (e : EntryId) : SameStanding s (s.setEntry e (s.entry e).flipTx) :=
  s.setEntry_sameStanding e _ rfl

theorem State.loadBackoff_sameStanding (s : State) (e : EntryId) : SameStanding s (s.loadBackoff e) :=
  s.setEntry_sameStanding e { s.entry e with backoffTimer := .load s.table.holdBackoff } rfl

theorem State.synced_sameStanding (s : State) (e : EntryId) : SameStanding s (s.synced e) :=
  s.setEntry_sameStanding e { s.entry e with txSeq := false, rxExpect := false, syncNeeded := false } rfl

theorem State.openAction_noLoss (s : State) (e : EntryId) (i : Option SlotId) : NoLoss s (s.openAction e i) :=
  s.setEntry_noLoss e _ nofun

/-- A WORKING reply to a PROBE loses the station at the probe limit, and only then (R55). -/
theorem State.probeWorking_loses (s : State) (e : EntryId) :
    LosesAtMost (some (.station e)) s (s.probeWorking e) := by
  have hcounted := s.setEntry_sameStanding e { s.entry e with probeCount := satInc (s.entry e).probeCount } rfl
  unfold State.probeWorking
  extract_lets _ counted
  split
  · exact (hcounted.trans (counted.setEntry_sameStanding e
      { counted.entry e with probeTimer := .load counted.table.probeInterval } rfl)).losesAtMost _
  · exact hcounted.trans_loses (.inr ⟨e, rfl, counted.loseStation_loses e true⟩)

theorem State.probeDone_noLoss (s : State) (e : EntryId) (r : Byte) : NoLoss s (s.probeDone e r) := by
  unfold State.probeDone
  split
  · exact (s.completeHead_sameStanding _ _ _ _ _).noLoss.trans (State.setEntry_noLoss _ e _ nofun)
  · exact s.setEntry_noLoss e _ nofun

/-- A reply evaluated OK loses no station but the one addressed (R35 to R38, R49, R54, R55). -/
theorem State.replyOk_loses (s : State) (x : Exchange) (k : FrameKind) (h : Header) (n : Nat) :
    LosesAtMost (some x.place) s (s.replyOk x k h n) := by
  unfold State.replyOk
  split
  · exact (s.setExchange_sameStanding none).losesAtMost _
  · next e he =>
    extract_lets told byte
    have htold : SameStanding s told := s.report_sameStanding x.place .ok rfl
    have hflipped (o d) : SameStanding s ((told.setEntry e (told.entry e).flipTx).closeDone x o d 0 none) :=
      (htold.trans (told.flipTx_sameStanding e)).trans (State.closeDone_sameStanding _ x o d 0 none)
    have hheld : SameStanding s ((told.loadBackoff e).closePending x) :=
      (htold.trans (told.loadBackoff_sameStanding e)).trans (State.closePending_sameStanding _ x)
    have hclosed (t : State) : SameStanding t (t.setExchange none) := t.setExchange_sameStanding none
    rw [he]
    split
    · exact (hflipped _ _).losesAtMost _
    · exact (hflipped _ _).losesAtMost _
    · exact (hflipped _ _).losesAtMost _
    · exact (hflipped _ _).losesAtMost _
    · exact .inl ((htold.noLoss.trans (told.openAction_noLoss e _)).trans_same (hclosed _))
    · exact hheld.losesAtMost _
    · exact hheld.losesAtMost _
    · exact ((htold.trans (told.synced_sameStanding e)).trans (hclosed _)).losesAtMost _
    · exact (htold.trans (told.closeDone_sameStanding x _ _ _ _)).losesAtMost _
    · exact (htold.trans (hclosed _)).losesAtMost _
    · exact (s.decideData_sameStanding x e h n).losesAtMost _
    · exact (s.decideData_sameStanding x e h n).losesAtMost _
    · exact (htold.trans_loses (told.probeWorking_loses e)).trans_same (hclosed _)
    · exact .inl ((htold.noLoss.trans (told.probeDone_noLoss e _)).trans_same (hclosed _))
    · exact (htold.trans (hclosed _)).losesAtMost _

/-- A reply closed by its End loses no station but the one on the line (R28). -/
theorem State.closeReply_loses (s : State) (f : InFrame) : LosesAtMost s.linePlace s (s.closeReply f) := by
  rcases s.closeReply_cases f with ⟨-, h⟩ | ⟨x, hx, ⟨k, -, h⟩ | ⟨-, h⟩⟩ <;> rw [h]
  · exact (SameStanding.refl s).losesAtMost _
  · rw [State.linePlace_of_exchange hx]
    exact s.replyOk_loses x k _ _
  · rw [State.linePlace_of_exchange hx]
    exact s.discardArrival_sameStanding.trans_loses (State.failAttempt_loses _ x _)

theorem State.gapReply_loses (s : State) : LosesAtMost s.linePlace s s.gapReply := by
  unfold State.gapReply
  split
  · next x hx =>
    rw [State.linePlace_of_exchange hx]
    exact s.discardArrival_sameStanding.trans_loses (State.failAttempt_loses _ x .gap)
  · exact (SameStanding.refl s).losesAtMost _

theorem State.noReply_loses (s : State) : LosesAtMost s.linePlace s s.noReply := by
  unfold State.noReply
  split
  · next x hx =>
    rw [State.linePlace_of_exchange hx]
    split
    · exact s.failAttempt_loses x .noReply
    all_goals exact (SameStanding.refl s).losesAtMost _
  · exact (SameStanding.refl s).losesAtMost _

theorem State.cutTransmission_sameStanding (s : State) : SameStanding s s.cutTransmission := by
  unfold State.cutTransmission
  split
  · exact .of_table rfl rfl
  all_goals exact .refl s

theorem State.abortPhase_sameStanding (s : State) (p : Phase) : SameStanding s (s.abortPhase p) := by
  unfold State.abortPhase
  split
  · exact .refl s
  · exact s.cutTransmission_sameStanding
  · exact s.cutTransmission_sameStanding
  · exact s.setLine_sameStanding _
  · refine s.discardArrival_sameStanding.trans ?_
    extract_lets discarded
    split
    · exact .of_table rfl rfl
    all_goals exact .refl _
  · exact .refl s

theorem State.needSync_sameStanding (s : State) (p : Place) : SameStanding s (s.needSync p) := by
  cases p with
  | station e => exact s.setEntry_sameStanding e { s.entry e with syncNeeded := true } rfl
  | broadcast => exact .refl s

/-- LINE_ABORT loses no station: ABORTED is no failed attempt (R44, R104). -/
theorem State.abortExchange_sameStanding (s : State) : SameStanding s s.abortExchange := by
  unfold State.abortExchange
  split
  · exact .refl s
  · next x _ =>
    exact (s.abortPhase_sameStanding x.phase).trans <| (State.report_sameStanding _ x.place .aborted rfl).trans <|
      (State.needSync_sameStanding _ _).trans (State.closePending_sameStanding _ x)

/-! ### Characters received -/

theorem State.beginArrival_sameStanding (s : State) (v : Byte) : SameStanding s (s.beginArrival v) := by
  rcases s.beginArrival_cases v with ⟨_, -, h⟩ | ⟨-, h⟩ <;> rw [h] <;> exact .of_table rfl rfl

theorem State.storeArrivalByte_sameStanding (s : State) (a : Arrival) (h : Handle) (v : Byte) :
    SameStanding s (s.storeArrivalByte a h v) :=
  (s.writeRecordByte_sameButStore h a.seen v).sameStanding.trans (.of_table rfl rfl)

theorem State.takePayloadByte_sameStanding (s : State) (limit : Nat) (v : Byte) :
    SameStanding s (s.takePayloadByte limit v) := by
  cases ha : s.inbound.arrival with
  | none =>
    have hidle : s.takePayloadByte limit v = s := by simp only [State.takePayloadByte, ha]
    rw [hidle]
    exact .refl s
  | some a =>
    rcases s.takePayloadByte_cases limit v a ha with
      ⟨-, h⟩ | ⟨g, -, -, ⟨-, h⟩ | ⟨-, -, -, h⟩ | ⟨b, _, -, -, -, h⟩ | ⟨-, -, h⟩⟩ <;> rw [h]
    · exact .of_table rfl rfl
    · exact .of_table rfl rfl
    · exact .of_table rfl rfl
    · have happend : SameStanding s (s.appendBlock g b) :=
        ((s.setRecord_sameButStore g _).trans (State.takeBlocks_sameButStore _ 1)).sameStanding
      exact happend.trans (State.storeArrivalByte_sameStanding _ a g v)
    · exact s.storeArrivalByte_sameStanding a g v

theorem State.handHeader_sameStanding (s : State) (h : Header) (r : Bool) : SameStanding s (s.handHeader h r) := by
  unfold State.handHeader
  split
  · next x _ =>
    have hheld := s.setExchange_sameStanding (some { x with header := some h })
    extract_lets held
    split
    · split
      · exact hheld.trans (held.beginArrival_sameStanding h.src)
      · exact hheld
    · exact hheld
  · exact .refl s

theorem State.handPayload_sameStanding (s : State) (v : Byte) : SameStanding s (s.handPayload v) := by
  unfold State.handPayload
  split
  · extract_lets held
    have hheld : SameStanding s held := s.setExchange_sameStanding _
    split
    · exact hheld.trans (held.takePayloadByte_sameStanding _ v)
    · exact hheld
  · exact .refl s

theorem State.codingFault_sameStanding (s : State) (f : InFrame) : SameStanding s (s.codingFault f) :=
  .of_table rfl rfl

theorem State.setReceiver_sameStanding (s : State) (r : Receiver) : SameStanding s (s.setReceiver r) :=
  .of_table rfl rfl

theorem State.decodeByte_sameStanding (s : State) (f : InFrame) (v : Byte) : SameStanding s (s.decodeByte f v) := by
  unfold State.decodeByte
  split
  · exact s.setReceiver_sameStanding _
  split
  · exact s.codingFault_sameStanding _
  extract_lets held kept headed
  have hkept : SameStanding s kept := s.setReceiver_sameStanding _
  split
  · exact hkept
  have hheaded : SameStanding s headed := by
    unfold headed
    split
    · split
      · exact hkept.trans (kept.handHeader_sameStanding _ _)
      · exact hkept
    · exact hkept
  split
  · exact hheaded.trans (headed.handPayload_sameStanding _)
  · exact hheaded

theorem State.restartFrame_sameStanding (s : State) (f : InFrame) : SameStanding s (s.restartFrame f) := by
  unfold State.restartFrame
  extract_lets shifted restarted
  have hshifted : SameStanding s shifted := by
    unfold shifted
    split
    · exact .of_table rfl rfl
    · exact .refl s
  have hrestarted : SameStanding s restarted := hshifted.trans (shifted.codingFault_sameStanding _)
  split
  · rw [State.restartArrival_eq]
    exact hrestarted.trans (.of_table rfl rfl)
  · exact hrestarted

theorem State.closeFrame_loses (s : State) (f : InFrame) : LosesAtMost s.linePlace s (s.closeFrame f) := by
  cases hd : f.dest with
  | stray =>
    rw [s.closeFrame_stray f hd]
    exact (s.setLine_sameStanding _).losesAtMost _
  | reply =>
    rw [s.closeFrame_reply f hd]
    exact (s.setLine_sameStanding _).trans_loses (State.closeReply_loses _ f)

theorem State.decodeGood_loses (s : State) (f : InFrame) (v : Byte) :
    LosesAtMost s.linePlace s (s.decodeGood f v) := by
  unfold State.decodeGood
  extract_lets plain
  split
  · exact (s.restartFrame_sameStanding f).losesAtMost _
  split
  · split
    · exact (s.setLine_sameStanding _).trans_loses (s.countCoding.closeFrame_loses _)
    · exact s.closeFrame_loses f
  split
  · split
    · exact (s.decodeByte_sameStanding _ _).losesAtMost _
    · exact (s.codingFault_sameStanding _).losesAtMost _
  split
  · exact (s.setReceiver_sameStanding _).losesAtMost _
  · exact (s.decodeByte_sameStanding f v).losesAtMost _

theorem State.decodeCharacter_loses (s : State) (f : InFrame) (v : Byte) (good : Bool) :
    LosesAtMost s.linePlace s (s.decodeCharacter f v good) := by
  have htimed : SameStanding s s.loadGap := .of_table rfl rfl
  unfold State.decodeCharacter
  extract_lets timed
  split
  · exact htimed.trans_loses (timed.decodeGood_loses f v)
  · exact (htimed.trans (timed.codingFault_sameStanding _)).losesAtMost _

theorem State.compareEcho_loses (s : State) (v : Byte) (good : Bool) :
    LosesAtMost s.linePlace s (s.compareEcho v good) := by
  unfold State.compareEcho
  split
  · exact s.echoFault_loses
  · split
    · extract_lets _ matched
      have hmatched : SameStanding s matched := s.setLine_sameStanding _
      split
      · exact ((hmatched.trans (matched.setReceiver_sameStanding _)).trans
          (State.echoComplete_sameStanding _)).losesAtMost _
      · exact hmatched.losesAtMost _
    · exact s.echoFault_loses

theorem State.openFrame_sameStanding (s : State) : SameStanding s s.openFrame := by
  unfold State.openFrame
  split
  · split <;> exact .of_table rfl rfl
  · exact .of_table rfl rfl

theorem State.receive_loses (s : State) (v : Byte) (p st : Bool) : LosesAtMost s.linePlace s (s.receive v p st) := by
  unfold State.receive
  split
  · exact (SameStanding.refl s).losesAtMost _
  extract_lets good _ heard
  have hheard : SameStanding s heard := s.setLine_sameStanding _
  split
  · split
    · exact (hheard.trans heard.openFrame_sameStanding).losesAtMost _
    · exact hheard.losesAtMost _
  · exact hheard.trans_loses (heard.decodeCharacter_loses _ v good)
  · exact hheard.trans_loses (heard.compareEcho_loses v good)
  · exact hheard.losesAtMost _

/-! ### The timers of the line -/

theorem State.replyTimeUp_loses (s : State) : LosesAtMost s.linePlace s s.replyTimeUp := by
  unfold State.replyTimeUp
  split
  · exact (SameStanding.refl s).losesAtMost _
  · exact (s.setLine_sameStanding _).trans_loses (State.noReply_loses _)

theorem State.gapTimeUp_loses (s : State) : LosesAtMost s.linePlace s s.gapTimeUp := by
  unfold State.gapTimeUp
  split
  · exact (SameStanding.refl s).losesAtMost _
  split
  · extract_lets ended
    have hended : SameStanding s ended := .of_table rfl rfl
    split
    · exact hended.trans_loses ended.gapReply_loses
    · exact hended.losesAtMost _
  all_goals exact (SameStanding.refl s).losesAtMost _

theorem State.echoOverdue_loses (s : State) : LosesAtMost s.linePlace s s.echoOverdue := by
  unfold State.echoOverdue
  split
  · split
    · exact (SameStanding.refl s).losesAtMost _
    · exact s.echoFault_loses
  all_goals exact (SameStanding.refl s).losesAtMost _

/-! ### How a happening and a command end -/

theorem State.grant_sameStanding (s : State) (k : ExchangeKind) (p : Place) (i : Option SlotId) :
    SameStanding s (s.grant k p i) := by
  rw [s.grant_frame k p i]
  exact .of_table rfl rfl

theorem State.grantCommand_sameStanding (s : State) (k : Fin 17) : SameStanding s (s.grantCommand k) := by
  unfold State.grantCommand
  extract_lets moved
  have hgrant : ∀ kind p i, SameStanding s (moved.grant kind p i) := fun kind p i =>
    (s.setArbiter_sameStanding _).trans (moved.grant_sameStanding kind p i)
  split
  · split
    · exact hgrant _ _ _
    split
    · exact .refl s
    split
    · exact hgrant _ _ _
    · exact .refl s
  · split
    · exact .refl s
    · exact hgrant _ _ _

theorem State.endFinishedRound_sameStanding (s : State) : SameStanding s s.endFinishedRound := by
  unfold State.endFinishedRound
  split
  · exact s.setArbiter_sameStanding _
  · exact .refl s

theorem State.callChoice_sameStanding (s : State) : SameStanding s s.callChoice := by
  rcases s.callChoice_cases with ⟨-, -, h⟩ | ⟨-, h⟩ <;> rw [h]
  · refine s.endFinishedRound_sameStanding.trans ?_
    generalize s.endFinishedRound = r
    rcases r.makeGrant_cases with ⟨i, -, h⟩ | ⟨-, ⟨k, -, -, h⟩ | ⟨i, -, -, h⟩ | ⟨-, -, h⟩⟩ <;> rw [h]
    · exact r.grant_sameStanding _ _ _
    · exact r.grantCommand_sameStanding k
    · exact (r.setArbiter_sameStanding _).trans (State.grant_sameStanding _ _ _ _)
    · exact .refl r
  · exact .refl s

theorem State.countRefusal_sameStanding (s : State) (p : Place) (v : Verdict) :
    SameStanding s (s.countRefusal p v) := by
  cases p with
  | station e =>
    simp only [State.countRefusal]
    split
    · exact s.setEntry_sameStanding e { s.entry e with refusals := satInc (s.entry e).refusals } rfl
    · exact .refl s
  | broadcast => exact .refl s

theorem State.reportQuiet_sameStanding (s : State) : SameStanding s s.reportQuiet := by
  rcases s.reportQuiet_cases with ⟨x, -, -, -, h⟩ | ⟨x, -, -, -, h⟩ | ⟨-, h⟩ <;> rw [h]
  · rw [s.enterTransmit_eq x]
    exact .of_table rfl rfl
  · unfold State.enterAnswer
    split
    · exact (s.countRefusal_sameStanding _ _).trans (.of_table rfl rfl)
    · exact .refl s
  · exact .refl s

theorem State.settle_sameStanding (s : State) : SameStanding s s.settle :=
  s.callChoice_sameStanding.trans (State.reportQuiet_sameStanding _)

theorem happening_loses {p : Option Place} (f : State → State) (h : happening f s = .next t)
    (hf : LosesAtMost p s (f s)) : LosesAtMost p s t := by
  rcases happening_cases s f with ⟨-, e⟩ | ⟨-, e⟩ <;> obtain rfl := Host.Outcome.next.inj (e.symm.trans h)
  · exact (SameStanding.refl s).losesAtMost p
  · exact hf.trans_same ((f s).settle_sameStanding.trans (State.setLastClose_sameStanding _ _))

theorem endOfWait_loses {p : Option Place} (f : State → State) (h : endOfWait f s = .next t)
    (hf : LosesAtMost p s (f s)) : LosesAtMost p s t := by
  rcases endOfWait_cases s f with ⟨-, e⟩ | ⟨-, -, e⟩ | ⟨-, -, e⟩ <;>
    obtain rfl := Host.Outcome.next.inj (e.symm.trans h)
  · exact (SameStanding.refl s).losesAtMost p
  · exact hf.trans_same ((f s).callChoice_sameStanding.trans (State.setLastClose_sameStanding _ _))
  · exact hf.trans_same ((f s).settle_sameStanding.trans (State.setLastClose_sameStanding _ _))

/-- A command taken through COMMAND loses no station where its effects lose none. -/
theorem takeCommand_noLoss (f : State → Except Reason (State × BitVec 6)) (h : takeCommand f s = .next t)
    (hf : ∀ u v, f s = .ok (u, v) → NoLoss s u) : NoLoss s t := by
  have hfinish : ∀ u : State, SameStanding u u.finishCommand := fun u =>
    u.settle_sameStanding.trans (State.setLastClose_sameStanding _ none)
  rcases takeCommand_cases s f with ⟨-, e⟩ | ⟨r, -, -, e⟩ | ⟨u, v, -, hok, e⟩ <;>
    obtain rfl := Host.Outcome.next.inj (e.symm.trans h)
  · exact (SameStanding.refl s).noLoss
  · exact ((s.setResult_sameStanding _).trans (hfinish (s.refuse r))).noLoss
  · exact (hf u v hok).trans_same ((u.setResult_sameStanding _).trans (hfinish (u.accept v)))

theorem execLineAbort_noLoss (h : execLineAbort s = .next t) : NoLoss s t := by
  have heffect : SameStanding s ((if s.lastClose.isSome then s else s.abortExchange).accept 0#6) := by
    split
    · exact .of_table rfl rfl
    · exact s.abortExchange_sameStanding.trans (.of_table rfl rfl)
  rcases execLineAbort_cases s with ⟨-, e⟩ | ⟨-, -, e⟩ | ⟨-, -, e⟩ <;>
    obtain rfl := Host.Outcome.next.inj (e.symm.trans h)
  · exact (SameStanding.refl s).noLoss
  · exact (heffect.trans ((State.callChoice_sameStanding _).trans (State.setLastClose_sameStanding _ none))).noLoss
  · exact (heffect.trans ((State.settle_sameStanding _).trans (State.setLastClose_sameStanding _ none))).noLoss

/-! ### Commands taken through COMMAND -/

/-- A management command on a station has the effect it has on the entry named (R3). -/
theorem State.onStation_ok {s u : State} {f : EntryId → Except Reason State} {v : BitVec 6}
    (h : s.onStation f = .ok (u, v)) : ∃ e, f e = .ok u := by
  unfold State.onStation at h
  split at h
  · cases h
  · next e _ =>
    split at h
    · cases h
    · next hf => cases h; exact ⟨e, hf⟩

theorem State.takeBack_sameStanding (s : State) (e : EntryId) : SameStanding s (s.takeBack e) := by
  rcases s.takeBack_cases e with ⟨c, x, -, h⟩ | ⟨-, h⟩ <;> rw [h]
  · exact (s.closePending_sameStanding x).trans (State.setArbiter_sameStanding _ _)
  · exact .refl s

theorem State.beforeFlush_sameStanding (s : State) (e : EntryId) : SameStanding s (s.beforeFlush e) := by
  unfold State.beforeFlush
  split
  · exact s.takeBack_sameStanding e
  · exact .refl s

theorem State.markSlot_sameStanding (s : State) (i : SlotId) : SameStanding s (s.markSlot i) := by
  unfold State.markSlot
  split
  · exact .of_table rfl rfl
  · exact .refl s

theorem State.foldl_markSlot_sameStanding (l : List SlotId) (s : State) :
    SameStanding s (l.foldl State.markSlot s) := by
  induction l generalizing s with
  | nil => exact .refl s
  | cons i l ih => exact (s.markSlot_sameStanding i).trans (ih _)

theorem State.flush_sameStanding (s : State) (e : EntryId) : SameStanding s (s.flush e) := by
  unfold State.flush
  split
  · exact State.foldl_markSlot_sameStanding _ s
  · exact (s.completeAll_same e _).sameStanding

theorem State.queueRecord_sameStanding (s : State) (h : Option Handle) (keep : Bool) :
    SameStanding s (s.queueRecord h keep) := by
  unfold State.queueRecord
  split
  · exact (s.setRecord_sameButStore _ _).sameStanding
  · exact .refl s

theorem State.joinList_sameStanding (s : State) (p : Place) (i : SlotId) : SameStanding s (s.joinList p i) := by
  cases p with
  | station e => exact s.setEntry_sameStanding e { s.entry e with pendingList := (s.entry e).pendingList ++ [i] } rfl
  | broadcast => exact .of_table rfl rfl

theorem State.takeSlot_noLoss {x : Slot} {v : BitVec 6} (h : s.takeSlot x = .ok (u, v)) : NoLoss s u := by
  unfold State.takeSlot at h
  split at h
  · cases h
  split at h
  · cases h
  · next i _ =>
    cases h
    have hset : SameStanding s (s.setSlot i (some x)) := .of_table rfl rfl
    exact (hset.trans ((State.queueRecord_sameStanding _ _ _).trans (State.joinList_sameStanding _ _ i))).noLoss

theorem sendCommand_noLoss {v : BitVec 6} (h : sendCommand s = .ok (u, v)) : NoLoss s u := by
  unfold sendCommand at h
  split at h
  · cases h
  split at h
  · cases h
  · exact State.takeSlot_noLoss h

theorem pollCommand_noLoss {v : BitVec 6} (h : pollCommand s = .ok (u, v)) : NoLoss s u := by
  unfold pollCommand at h
  split at h
  · cases h
  · exact State.takeSlot_noLoss h

theorem actionCommand_noLoss {v : BitVec 6} (h : actionCommand s = .ok (u, v)) : NoLoss s u := by
  unfold actionCommand at h
  split at h
  · cases h
  split at h
  · cases h
  · exact State.takeSlot_noLoss h

theorem broadcastCommand_noLoss {v : BitVec 6} (h : broadcastCommand s = .ok (u, v)) : NoLoss s u := by
  unfold broadcastCommand at h
  split at h
  · cases h
  · exact State.takeSlot_noLoss h

/-- The entry an ATTACH makes is READY (R12). -/
theorem attachCommand_noLoss {v : BitVec 6} (h : attachCommand s = .ok (u, v)) : NoLoss s u := by
  unfold attachCommand at h
  split at h
  · cases h
  split at h
  · cases h
  split at h
  · cases h
  split at h
  · cases h
  · cases h
    exact s.setEntry_noLoss _ _ nofun

/-- The entry a DETACH leaves is VACANT (R14). -/
theorem detachCommand_noLoss {v : BitVec 6} (h : detachCommand s = .ok (u, v)) : NoLoss s u := by
  obtain ⟨e, he⟩ := State.onStation_ok h
  refine (s.takeBack_sameStanding e).noLoss.trans ?_
  generalize s.takeBack e = b at he
  unfold State.detach at he
  split at he
  · cases he
  · cases he
    exact (b.completeAll_same e _).sameStanding.noLoss.trans (State.setEntry_noLoss _ e _ nofun)

theorem State.setPaused_sameStanding (s : State) (e : EntryId) (p : Bool) : SameStanding s (s.setPaused e p) :=
  s.setEntry_sameStanding e { s.entry e with paused := p } rfl

theorem pauseCommand_noLoss {v : BitVec 6} (h : pauseCommand s = .ok (u, v)) : NoLoss s u := by
  obtain ⟨e, he⟩ := State.onStation_ok h
  cases he
  exact (s.setPaused_sameStanding e true).noLoss

theorem resumeCommand_noLoss {v : BitVec 6} (h : resumeCommand s = .ok (u, v)) : NoLoss s u := by
  obtain ⟨e, he⟩ := State.onStation_ok h
  cases he
  exact (s.setPaused_sameStanding e false).noLoss

/-- The entry a REVIVE makes is READY (R17). -/
theorem reviveCommand_noLoss {v : BitVec 6} (h : reviveCommand s = .ok (u, v)) : NoLoss s u := by
  obtain ⟨e, he⟩ := State.onStation_ok h
  split at he
  · cases he
    exact s.setEntry_noLoss e _ nofun
  · cases he

theorem flushCommand_noLoss {v : BitVec 6} (h : flushCommand s = .ok (u, v)) : NoLoss s u := by
  obtain ⟨e, he⟩ := State.onStation_ok h
  cases he
  exact ((s.beforeFlush_sameStanding e).trans (State.flush_sameStanding _ e)).noLoss

theorem stationQueryCommand_noLoss {v : BitVec 6} (h : stationQueryCommand s = .ok (u, v)) : NoLoss s u := by
  unfold stationQueryCommand at h
  split at h
  · cases h
  · cases h
    exact .of_table rfl

theorem lineQueryCommand_noLoss {v : BitVec 6} (h : lineQueryCommand s = .ok (u, v)) : NoLoss s u := by
  unfold lineQueryCommand at h
  split at h
  · cases h; exact .of_table rfl
  · cases h; exact .of_table rfl
  · cases h

theorem clearCountersCommand_noLoss {v : BitVec 6} (h : clearCountersCommand s = .ok (u, v)) : NoLoss s u := by
  cases h
  refine ⟨rfl, fun n hn => ?_⟩
  rwa [← s.mapEntries_state Entry.cleared (fun _ => rfl) n]

theorem allocCommand_noLoss {v : BitVec 6} (h : allocCommand s = .ok (u, v)) : NoLoss s u := by
  unfold allocCommand at h
  split at h
  · cases h
  split at h
  · cases h
  split at h
  · cases h
  · cases h
    unfold State.allocate
    extract_lets blocks filled
    have hfilled : SameStanding s filled := .of_table rfl rfl
    exact (hfilled.trans ((State.setStore_sameStanding _ _).trans
      (State.takeBlocks_sameButStore _ _).sameStanding)).noLoss

theorem sealCommand_noLoss {v : BitVec 6} (h : sealCommand s = .ok (u, v)) : NoLoss s u := by
  unfold sealCommand at h
  split at h
  · cases h
  · cases h
    exact (s.setRecord_sameButStore _ _).sameStanding.noLoss

theorem freeCommand_noLoss {v : BitVec 6} (h : freeCommand s = .ok (u, v)) : NoLoss s u := by
  unfold freeCommand at h
  split at h
  · cases h
  · cases h
    exact (s.freeRecord_sameButStore _).sameStanding.noLoss

theorem releaseCommand_noLoss {v : BitVec 6} (h : releaseCommand s = .ok (u, v)) : NoLoss s u := by
  unfold releaseCommand at h
  split at h
  · cases h
  · cases h
    exact ((s.setInbound_sameStanding _).trans (State.freeRecord_sameButStore _ _).sameStanding).noLoss

theorem setMarksCommand_noLoss {v : BitVec 6} (h : setMarksCommand s = .ok (u, v)) : NoLoss s u := by
  unfold setMarksCommand at h
  split at h
  · cases h
    rw [State.evalMarks_eq, State.setRestraint_eq]
    exact .of_table rfl
  · cases h

/-! ### Writes of the window's other registers -/

theorem State.acknowledge_noLoss (s : State) (v : Word) : NoLoss s (s.acknowledge v) := by
  unfold State.acknowledge
  split <;> exact .of_table rfl

theorem State.removeCompletion_noLoss (s : State) : NoLoss s s.removeCompletion := by
  unfold State.removeCompletion
  split <;> exact .of_table rfl

theorem State.readWindow_noLoss (s : State) : NoLoss s s.readWindow := by
  unfold State.readWindow
  split <;> exact .of_table rfl

theorem State.writeWindow_noLoss (s : State) (v : Word) : NoLoss s (s.writeWindow v) := by
  unfold State.writeWindow
  split
  · next h _ =>
    have hlow := s.writeRecordByte_sameButStore h s.host.winOffset.toNat (lowByte v)
    have hstored : SameStanding s (s.storeWindow h v) := by
      unfold State.storeWindow
      extract_lets k low
      split
      · exact (hlow.trans (low.writeRecordByte_sameButStore h (k + 1) (highByte v))).sameStanding
      · exact hlow.sameStanding
    exact hstored.noLoss.trans (.of_table rfl)
  · exact .of_table rfl

theorem State.writeRate_noLoss (s : State) (v : Word) : NoLoss s (s.writeRate v) := by
  simp only [State.writeRate]
  split <;> exact .of_table rfl

theorem State.writePollTime_noLoss (s : State) (v : Word) : NoLoss s (s.writePollTime v) := by
  simp only [State.writePollTime]
  split <;> exact .of_table rfl

theorem State.writeOther_noLoss (s : State) (o : BitVec 5) (v : Word) : NoLoss s (s.writeOther o v) := by
  unfold State.writeOther
  split <;> exact .of_table rfl

/-! ### The other happenings -/

theorem State.inputReturn_noLoss (s : State) : NoLoss s s.inputReturn := by
  unfold State.inputReturn
  split <;> exact .of_table rfl

theorem State.transmitNext_noLoss (s : State) : NoLoss s s.transmitNext := by
  unfold State.transmitNext
  split
  · split <;> exact .of_table rfl
  · exact .of_table rfl

theorem State.finishSending_noLoss (s : State) : NoLoss s s.finishSending := by
  unfold State.finishSending
  split
  · split <;> exact .of_table rfl
  · exact .of_table rfl

theorem State.drainOver_noLoss (s : State) : NoLoss s s.drainOver := by
  unfold State.drainOver
  split
  · split <;> exact .of_table rfl
  all_goals exact .of_table rfl

theorem State.pollPeriodUp_noLoss (s : State) : NoLoss s s.pollPeriodUp := by
  unfold State.pollPeriodUp
  split <;> exact .of_table rfl

theorem State.backoffUp_sameStanding (s : State) (e : EntryId) : SameStanding s (s.backoffUp e) :=
  s.setEntry_sameStanding e { s.entry e with backoffTimer := .stopped } rfl

theorem State.probeTimeUp_sameStanding (s : State) (e : EntryId) : SameStanding s (s.probeTimeUp e) :=
  s.setEntry_sameStanding e { s.entry e with probeTimer := .stopped } rfl

theorem State.lingerUp_noLoss (s : State) : NoLoss s s.lingerUp := by
  unfold State.lingerUp
  split <;> exact .of_table rfl

/-! ### Every command -/

/-- Whatever the command, no station is lost but that of the exchange in flight, and but for a loss the Lost Summary
changes with the write of LOST_SUMMARY and the two resets alone (R112). -/
theorem exec_loses {c : Instr} (h : exec c s = .next t) (hwrite : ∀ v, c ≠ .lostSummaryWrite v)
    (hreset : c ≠ .controllerReset) (hpin : c ≠ .hardwareReset) : LosesAtMost s.linePlace s t := by
  cases c with
  | send => exact .inl (takeCommand_noLoss sendCommand h fun _ _ => sendCommand_noLoss)
  | poll => exact .inl (takeCommand_noLoss pollCommand h fun _ _ => pollCommand_noLoss)
  | action => exact .inl (takeCommand_noLoss actionCommand h fun _ _ => actionCommand_noLoss)
  | broadcast => exact .inl (takeCommand_noLoss broadcastCommand h fun _ _ => broadcastCommand_noLoss)
  | attach => exact .inl (takeCommand_noLoss attachCommand h fun _ _ => attachCommand_noLoss)
  | detach => exact .inl (takeCommand_noLoss detachCommand h fun _ _ => detachCommand_noLoss)
  | pause => exact .inl (takeCommand_noLoss pauseCommand h fun _ _ => pauseCommand_noLoss)
  | resume => exact .inl (takeCommand_noLoss resumeCommand h fun _ _ => resumeCommand_noLoss)
  | revive => exact .inl (takeCommand_noLoss reviveCommand h fun _ _ => reviveCommand_noLoss)
  | flush => exact .inl (takeCommand_noLoss flushCommand h fun _ _ => flushCommand_noLoss)
  | stationQuery => exact .inl (takeCommand_noLoss stationQueryCommand h fun _ _ => stationQueryCommand_noLoss)
  | lineQuery => exact .inl (takeCommand_noLoss lineQueryCommand h fun _ _ => lineQueryCommand_noLoss)
  | clearCounters => exact .inl (takeCommand_noLoss clearCountersCommand h fun _ _ => clearCountersCommand_noLoss)
  | alloc => exact .inl (takeCommand_noLoss allocCommand h fun _ _ => allocCommand_noLoss)
  | sealRecord => exact .inl (takeCommand_noLoss sealCommand h fun _ _ => sealCommand_noLoss)
  | free => exact .inl (takeCommand_noLoss freeCommand h fun _ _ => freeCommand_noLoss)
  | release => exact .inl (takeCommand_noLoss releaseCommand h fun _ _ => releaseCommand_noLoss)
  | setMarks => exact .inl (takeCommand_noLoss setMarksCommand h fun _ _ => setMarksCommand_noLoss)
  | lineAbort => exact .inl (execLineAbort_noLoss h)
  | controllerReset => exact absurd rfl hreset
  | badCodeCommand code =>
    change execBadCodeCommand code s = _ at h
    unfold execBadCodeCommand at h
    split at h
    · cases h
    · exact .inl (takeCommand_noLoss (fun _ => .error .badCode) h fun _ _ hok => by cases hok)
  | runStart ignored => exact happening_loses (·.writeControl (ignored ++ 1#1)) h (.inl (.of_table rfl))
  | runStop ignored => exact happening_loses (·.writeControl (ignored ++ 0#1)) h (.inl (.of_table rfl))
  | causeEnableWrite value => exact happening_loses (·.writeCauseEnable value) h (.inl (.of_table rfl))
  | causeAck value => exact happening_loses (·.acknowledge value) h (.inl (s.acknowledge_noLoss value))
  | cqInfoWrite value => exact happening_loses State.removeCompletion h (.inl s.removeCompletion_noLoss)
  | winSelectWrite value =>
    exact happening_loses (fun t => { t with host := { t.host with winSelect := lowByte value } })
      h (.inl (.of_table rfl))
  | winOffsetWrite value =>
    exact happening_loses (fun t => { t with host := { t.host with winOffset := value.extractLsb' 1 15 ++ 0#1 } })
      h (.inl (.of_table rfl))
  | winDataRead => exact happening_loses State.readWindow h (.inl s.readWindow_noLoss)
  | winDataWrite value => exact happening_loses (·.writeWindow value) h (.inl (s.writeWindow_noLoss value))
  | rateWrite value => exact happening_loses (·.writeRate value) h (.inl (s.writeRate_noLoss value))
  | lineTimesWrite value => exact happening_loses (·.writeLineTimes value) h (.inl (.of_table rfl))
  | replyTimeWrite value => exact happening_loses (·.writeReplyTime value) h (.inl (.of_table rfl))
  | pollTimeWrite value => exact happening_loses (·.writePollTime value) h (.inl (s.writePollTime_noLoss value))
  | probeSetupWrite value => exact happening_loses (·.writeProbeSetup value) h (.inl ⟨rfl, fun _ => id⟩)
  | backoffWrite value => exact happening_loses (·.writeBackoff value) h (.inl ⟨rfl, fun _ => id⟩)
  | coalesceWrite value => exact happening_loses (·.writeCoalesce value) h (.inl (.of_table rfl))
  | lostSummaryWrite value => exact absurd rfl (hwrite value)
  | otherRegisterWrite offset value =>
    change execOtherRegisterWrite offset value s = _ at h
    unfold execOtherRegisterWrite at h
    split at h
    · exact happening_loses (·.writeOther offset value) h (.inl (s.writeOther_noLoss offset value))
    · cases h
  | hardwareReset => exact absurd rfl hpin
  | resetRelease =>
    cases h
    exact .inl (.of_table rfl)
  | characterReceived value parity stop =>
    exact happening_loses (·.receive value parity stop) h (s.receive_loses value parity stop)
  | inputReturnAfterStopError => exact happening_loses State.inputReturn h (.inl s.inputReturn_noLoss)
  | transmitCharacter => exact happening_loses State.transmitNext h (.inl s.transmitNext_noLoss)
  | frameSent => exact happening_loses State.finishSending h (.inl s.finishSending_noLoss)
  | guardTimerExpiry =>
    exact happening_loses (fun t => { t with line := { t.line with guardTimer := 0#4 } }) h (.inl (.of_table rfl))
  | replyTimerExpiry => exact endOfWait_loses State.replyTimeUp h s.replyTimeUp_loses
  | gapTimerExpiry => exact endOfWait_loses State.gapTimeUp h s.gapTimeUp_loses
  | echoDeadline => exact happening_loses State.echoOverdue h s.echoOverdue_loses
  | drainEnd => exact happening_loses State.drainOver h (.inl s.drainOver_noLoss)
  | pollPeriodExpiry => exact happening_loses State.pollPeriodUp h (.inl s.pollPeriodUp_noLoss)
  | backoffExpiry entry => exact happening_loses (·.backoffUp entry) h ((s.backoffUp_sameStanding entry).losesAtMost _)
  | probeTimerExpiry entry =>
    exact happening_loses (·.probeTimeUp entry) h ((s.probeTimeUp_sameStanding entry).losesAtMost _)
  | lingerExpiry => exact happening_loses State.lingerUp h (.inl s.lingerUp_noLoss)

/-! ### The bits of the Lost Summary -/

/-- A loss sets the bit of its entry and no other (R112). -/
theorem LosesStation.getLsbD {e : EntryId} (h : LosesStation s t e) (n : EntryId) :
    t.table.lostSummary.getLsbD n.val = (s.table.lostSummary.getLsbD n.val || decide (n = e)) := by
  have hbit : (1#16 <<< e.val).getLsbD n.val = decide (n = e) := by
    clear h
    revert n e
    decide
  rw [h.lostSummary, BitVec.getLsbD_or, hbit]

/-- In a sound Station Table the station on the line is not FAILED (R51). -/
theorem State.not_failed_of_linePlace (s : State) (h : TableSound s) {e : EntryId}
    (he : s.linePlace = some (.station e)) : (s.entry e).state ≠ .failed := by
  obtain ⟨x, hx, hp⟩ := Option.map_eq_some_iff.mp he
  obtain ⟨-, -, hsound⟩ := h
  obtain ⟨hplace, -⟩ := hsound x hx
  rw [hp] at hplace
  rcases hplace with ⟨hw, -⟩ | ⟨hr, -⟩
  · rw [hw]; nofun
  · rw [hr]; nofun

/-- Settles O38: a command other than the write of LOST_SUMMARY and the resets loses at most the station on the line. -/
theorem lostSummaryFollowsTheLosses : Obligations.LostSummaryFollowsTheLosses := by
  unfold Obligations.LostSummaryFollowsTheLosses
  refine ⟨fun s v hheld => happens_of_effect (fun t => t.writeLostSummary v) hheld rfl rfl, fun s => rfl, ?_, ?_⟩
  · intro c s t n hexec hwrite hreset hpin
    rcases exec_loses hexec hwrite hreset hpin with hno | ⟨e, hplace, hloss⟩
    · refine ⟨fun hset => hno.lostSummary ▸ hset, fun hold hnew => absurd (hno.failed n hnew) hold, fun hold hnew => ?_⟩
      rw [hno.lostSummary, hold] at hnew
      cases hnew
    · rw [hloss.getLsbD n]
      refine ⟨fun hset => by rw [hset, Bool.true_or], fun hold hnew => ?_, fun hold hnew => ?_⟩
      · have hne : n = e := by_contra fun hne => hold (hloss.failed n hne hnew)
        exact ⟨by simp [hne], hloss.stationLost⟩
      · have hne : n = e := by rwa [hold, Bool.false_or, decide_eq_true_iff] at hnew
        subst hne
        exact ⟨hloss.state, fun hsound => s.not_failed_of_linePlace hsound hplace⟩
  · rintro c s t hexec hheld (rfl | rfl)
    · rw [exec_controllerReset s hheld] at hexec
      cases hexec
      rfl
    · change execHardwareReset s = _ at hexec
      rw [execHardwareReset, if_neg (by rw [hheld]; nofun)] at hexec
      cases hexec
      rfl

end Sys2Proof.Machine
end

section
/-! PROOFS. What ALLOC checks, in order, and what an accepted one takes from the free list, zeroes and leaves alone
(R118, R120, R122, R123, R130, R131). -/

namespace Sys2Proof.Machine

open Sys2Proof.Safety

variable (s : State)

variable {s} in
/-- A change of the Record Store and of the RESTRAINT cause alone reaches nothing outside the store. -/
theorem SameButStore.sameOutsideStore {t : State} (h : SameButStore s t) : SameOutsideStore s t :=
  ⟨h.command, h.queue, h.table, h.arbiter, h.exchange, h.lastClose, h.line, h.resetHeld, h.readData, h.pending⟩

/-- A state whose Record Store is replaced differs in nothing else. -/
theorem State.setStore_sameButStore (r : RecordStore) : SameButStore s { s with store := r } :=
  ⟨rfl, rfl, rfl, rfl, rfl, rfl, rfl, rfl, rfl, rfl, rfl, rfl⟩

/-! ### ALLOC's checks (R123) -/

/-- The first check: the length is 1 to 480. -/
theorem allocCommand_badParam (h : (s.param 2).toNat = 0 ∨ 480 < (s.param 2).toNat) :
    allocCommand s = .error .badParam :=
  if_pos h

/-- A length of 1 to 480 passes the first check. -/
theorem State.paramLength_inRange (hmin : 1 ≤ (s.param 2).toNat) (hmax : (s.param 2).toNat ≤ 480) :
    ¬ (s.paramLength = 0 ∨ Config.maxPayload < s.paramLength) := by
  simp only [State.paramLength, Config.maxPayload]
  omega

/-- The second check: some handle is FREE. -/
theorem allocCommand_noHandle (hmin : 1 ≤ (s.param 2).toNat) (hmax : (s.param 2).toNat ≤ 480)
    (hnone : ∀ h, (s.record h).state ≠ .free) : allocCommand s = .error .noHandle := by
  rw [allocCommand, if_neg (s.paramLength_inRange hmin hmax), s.lowestFreeHandle_none.mpr hnone]

/-- With a lowest FREE handle, the third check decides: the free list holds the blocks of the record. -/
theorem allocCommand_of_lowestFree {h : Handle} (hmin : 1 ≤ (s.param 2).toNat) (hmax : (s.param 2).toNat ≤ 480)
    (hfree : (s.record h).state = .free) (hlow : ∀ g : Handle, g.val < h.val → (s.record g).state ≠ .free) :
    allocCommand s =
      if s.store.freeList.length < blocksFor (s.param 2).toNat then .error .noBlocks
      else .ok (s.allocate h (s.param 2).toNat, BitVec.ofNat 6 h.val) := by
  rw [allocCommand, if_neg (s.paramLength_inRange hmin hmax), (s.lowestFreeHandle_some h).mpr ⟨hfree, hlow⟩]
  rfl

/-! ### An accepted ALLOC -/

/-- An accepted ALLOC changes the Record Store and the RESTRAINT cause alone (R123, R131). -/
theorem State.allocate_sameButStore (h : Handle) (n : Nat) : SameButStore s (s.allocate h n) :=
  ((s.setRecord_sameButStore h _).trans (State.setStore_sameButStore _ _)).trans
    (State.takeBlocks_sameButStore _ _)

/-- The blocks of the record have left the head of the free list (R118, R123). -/
theorem State.freeList_allocate (h : Handle) (n : Nat) :
    (s.allocate h n).store.freeList = s.store.freeList.drop (blocksFor n) := by
  rw [State.allocate, State.takeBlocks_eq]
  rfl

/-- The marks are as they were (R132). -/
theorem State.marks_allocate (h : Handle) (n : Nat) :
    (s.allocate h n).store.low = s.store.low ∧ (s.allocate h n).store.high = s.store.high := by
  rw [State.allocate, State.takeBlocks_eq]
  exact ⟨rfl, rfl⟩

/-- The store has been evaluated against LOW with the count the blocks leave (R130). -/
theorem State.restraint_allocate (h : Handle) (n : Nat) :
    (s.allocate h n).store.restraint =
      s.store.restraint.afterDecrease s.store.low (s.store.freeList.length - blocksFor n) := by
  rw [State.allocate, State.takeBlocks_eq]
  rfl

/-- A change of the restraint state has latched the RESTRAINT cause, and nothing else of the host window is changed
(R131). -/
theorem State.host_allocate (h : Handle) (n : Nat) :
    (s.allocate h n).host = { s.host with
      restraintCause := s.host.restraintCause ||
        decide ((s.allocate h n).store.restraint ≠ s.store.restraint) } := by
  rw [s.restraint_allocate, State.allocate, State.takeBlocks_eq]
  rfl

/-- Every byte of the blocks taken is 0, and every other byte is as it was (R123). -/
theorem State.readByte_allocate_eq (h : Handle) (n a : Nat) :
    readByte (s.allocate h n).store.bytes a =
      if a / 32 ∈ (s.store.freeList.take (blocksFor n)).map Fin.val then 0#8 else readByte s.store.bytes a := by
  rw [State.bytes_allocate, readByte_zeroBlocks]
  rfl

/-! ### The statement -/

/-- Settles O29: the three checks decide the command, and an accepted one leaves what `State.allocate` leaves. -/
theorem allocTakesTheFirstBlocks : Obligations.AllocTakesTheFirstBlocks := by
  intro s hheld n b
  have refuses {r : Reason} (he : allocCommand s = .error r) : Refuses .alloc s r :=
    refuses_of_error allocCommand hheld rfl he
  refine ⟨fun hbad => refuses (allocCommand_badParam s hbad), fun hmin hmax =>
    ⟨fun hnone => refuses (allocCommand_noHandle s hmin hmax hnone), fun h hfree hlow => ?_⟩⟩
  have hcommand := allocCommand_of_lowestFree s hmin hmax hfree hlow
  refine ⟨fun hfew => refuses (hcommand.trans (if_pos hfew)), fun henough => ?_⟩
  have hother (g : Handle) (hg : g ≠ h) : (s.allocate h n).record g = s.record g := by
    rw [State.record_allocate, if_neg hg.symm]
  exact ⟨s.allocate h n, accepts_of_ok allocCommand hheld rfl (hcommand.trans (if_neg (Nat.not_lt.mpr henough))),
    (s.record_allocate h h n).trans (if_pos rfl),
    hother,
    s.freeList_allocate h n,
    fun a ha => (s.readByte_allocate_eq h n a).trans (if_pos ha),
    fun a ha => (s.readByte_allocate_eq h n a).trans (if_neg ha),
    (s.marks_allocate h n).1, (s.marks_allocate h n).2,
    s.restraint_allocate h n,
    s.host_allocate h n,
    (s.allocate_sameButStore h n).inbound, (s.allocate_sameButStore h n).sameOutsideStore⟩

end Sys2Proof.Machine
end

section
/-! PROOFS. CLEAR_COUNTERS (R169); and the checks of a line command in their order, one lemma a check, with the command
refused by the first that fails and accepted with a slot when none does (R157). -/

namespace Sys2Proof.Machine

open Sys2Proof.Safety

variable {s : State} {c : Instr}

/-! ### CLEAR_COUNTERS (R169) -/

/-- Settles O25: the command is always accepted, with the counters cleared as its effect. -/
theorem clearCountersClearsTheCounters : Obligations.ClearCountersClearsTheCounters :=
  fun _ hheld => accepts_of_ok clearCountersCommand hheld rfl rfl

/-! ### Line commands, checks 1 and 2: the station -/

/-- A failed address check is the first check that fails (R157). -/
theorem State.lineStation_of_error {r : Reason} (h : s.namedEntry = .error r) : s.lineStation = .error r := by
  rw [State.lineStation, h]

/-- A FAILED station takes no line command (R111). -/
theorem State.lineStation_failed {e : EntryId} (h : s.namedEntry = .ok e) (hf : (s.entry e).state = .failed) :
    s.lineStation = .error .stationFailed := by
  simp only [State.lineStation, h, if_pos hf]

/-- A station that is not FAILED passes the first two checks, whatever else its entry holds. -/
theorem State.lineStation_ok {e : EntryId} (h : s.namedEntry = .ok e) (hf : (s.entry e).state ≠ .failed) :
    s.lineStation = .ok e := by
  simp only [State.lineStation, h, if_neg hf]

/-- SEND, POLL and ACTION begin with the checks of the station: the first of these that fails refuses the command. -/
theorem refuses_of_lineStation_error {r : Reason} (hc : c ∈ [Instr.send, .poll, .action]) (hheld : s.resetHeld = false)
    (h : s.lineStation = .error r) : Refuses c s r := by
  obtain rfl | rfl | rfl : c = .send ∨ c = .poll ∨ c = .action := by simpa using hc
  · exact refuses_of_error sendCommand hheld rfl (by rw [sendCommand, h])
  · exact refuses_of_error pollCommand hheld rfl (by rw [pollCommand, h])
  · exact refuses_of_error actionCommand hheld rfl (by rw [actionCommand, h])

/-! ### Check 4: the record -/

/-- No record has a handle above 63. -/
theorem State.readyRecordNamed_outOfRange (h : 63 < (lowByte (s.param 2)).toNat) :
    s.readyRecordNamed = .error .badRecord := by
  simp only [State.readyRecordNamed, State.judgeRecord, State.paramHandle, (handleOfByte_none _).mpr h]

/-- A handle of 0 to 63 is judged by the state of its record. -/
theorem State.readyRecordNamed_of_handle {h : Handle} (hn : h.val = (lowByte (s.param 2)).toNat) :
    s.readyRecordNamed =
      if (s.record h).state = .free ∨ (s.record h).state = .arriving then .error .badRecord
      else if (s.record h).state == .ready then .ok h else .error .recordBusy := by
  simp only [State.readyRecordNamed, State.judgeRecord, State.paramHandle, (handleOfByte_some _ _).mpr hn]

/-- A FREE or ARRIVING record is not one a command may name (R124). -/
theorem State.readyRecordNamed_badRecord {h : Handle} (hn : h.val = (lowByte (s.param 2)).toNat)
    (hs : (s.record h).state = .free ∨ (s.record h).state = .arriving) :
    s.readyRecordNamed = .error .badRecord := by
  rw [State.readyRecordNamed_of_handle hn, if_pos hs]

/-- A record in any other state than READY is busy (R125). -/
theorem State.readyRecordNamed_busy {h : Handle} (hn : h.val = (lowByte (s.param 2)).toNat)
    (hs : (s.record h).state = .filling ∨ (s.record h).state = .queued ∨ (s.record h).state = .sending ∨
      (s.record h).state = .inbound) :
    s.readyRecordNamed = .error .recordBusy := by
  rw [State.readyRecordNamed_of_handle hn]
  rcases hs with hs | hs | hs | hs <;> simp [hs]

/-! ### Check 5: the commitment count -/

/-- At 32 commitments no slot is taken (R159). -/
theorem State.takeSlot_full (x : Slot) (h : 32 ≤ s.commitment) : s.takeSlot x = .error .queueFull :=
  if_pos h

/-- Below 32 commitments a slot is taken: the count leaves one free (R159). -/
theorem State.takeSlot_ok (x : Slot) (h : s.commitment < 32) : ∃ t v, s.takeSlot x = .ok (t, v) := by
  obtain ⟨i, hi, -⟩ := s.exists_lowest_slot h
  have hroom : ¬ Config.commitmentLimit ≤ s.commitment := Nat.not_le.mpr h
  rw [State.takeSlot, if_neg hroom, hi]
  exact ⟨_, _, rfl⟩

/-! ### The commands after the checks of the station

POLL and ACTION have the commitment count left to pass, SEND and BROADCAST their record before it. -/

/-- What is left to check once only the commitment count is: QUEUE_FULL, or accepted. -/
structure SlotDecides (c : Instr) (s : State) : Prop where
  full : 32 ≤ s.commitment → Refuses c s .queueFull
  accepted : s.commitment < 32 → ∃ t v, Accepts c s t v

/-- What is left to check once only the record that PARAM2 names and the commitment count are, in this order. -/
structure RecordDecides (c : Instr) (s : State) : Prop where
  outOfRange : 63 < (lowByte (s.param 2)).toNat → Refuses c s .badRecord
  badRecord : ∀ h : Handle, h.val = (lowByte (s.param 2)).toNat →
    (s.record h).state = .free ∨ (s.record h).state = .arriving → Refuses c s .badRecord
  busy : ∀ h : Handle, h.val = (lowByte (s.param 2)).toNat →
    (s.record h).state = .filling ∨ (s.record h).state = .queued ∨ (s.record h).state = .sending ∨
      (s.record h).state = .inbound → Refuses c s .recordBusy
  ready : ∀ h : Handle, h.val = (lowByte (s.param 2)).toNat → (s.record h).state = .ready → SlotDecides c s

/-- The record READY, then the slot: the rest of SEND after its station, and the whole of BROADCAST. -/
def State.takeRecordSlot (s : State) (slot : Handle → Slot) : Except Reason (State × BitVec 6) :=
  match s.readyRecordNamed with
  | .error r => .error r
  | .ok h => s.takeSlot (slot h)

/-- A command that comes down to taking a slot is decided by the commitment count. -/
theorem slotDecides_of_takeSlot {f : State → Except Reason (State × BitVec 6)} {x : Slot} (hheld : s.resetHeld = false)
    (he : exec c s = takeCommand f s) (hf : f s = s.takeSlot x) : SlotDecides c s where
  full h := refuses_of_error f hheld he (hf.trans (s.takeSlot_full x h))
  accepted h := by
    obtain ⟨t, v, ht⟩ := s.takeSlot_ok x h
    exact ⟨t, v, accepts_of_ok f hheld he (hf.trans ht)⟩

/-- A command that comes down to taking a slot for the record named is decided by the record, then by the commitment
count. -/
theorem recordDecides_of_takeRecordSlot {f : State → Except Reason (State × BitVec 6)} {slot : Handle → Slot}
    (hheld : s.resetHeld = false) (he : exec c s = takeCommand f s) (hf : f s = s.takeRecordSlot slot) :
    RecordDecides c s := by
  have refuses {r : Reason} (hr : s.readyRecordNamed = .error r) : Refuses c s r :=
    refuses_of_error f hheld he (by rw [hf, State.takeRecordSlot, hr])
  exact {
    outOfRange := fun hn => refuses (State.readyRecordNamed_outOfRange hn)
    badRecord := fun _ hn hs => refuses (State.readyRecordNamed_badRecord hn hs)
    busy := fun _ hn hs => refuses (State.readyRecordNamed_busy hn hs)
    ready := fun h hn hs => slotDecides_of_takeSlot (x := slot h) hheld he
      (by rw [hf, State.takeRecordSlot, State.readyRecordNamed_ok hn.symm hs]) }

/-- POLL's last check, its station not FAILED. -/
theorem poll_slotDecides {e : EntryId} (hheld : s.resetHeld = false) (h : s.lineStation = .ok e) :
    SlotDecides .poll s :=
  slotDecides_of_takeSlot (f := pollCommand) (x := s.pollSlot e) hheld rfl (by rw [pollCommand, h])

/-- ACTION's third check: more than six parameter bytes (R47). -/
theorem action_refuses_badParam {e : EntryId} (hheld : s.resetHeld = false) (h : s.lineStation = .ok e)
    (hcount : 6 < (highByte (s.param 2)).toNat) : Refuses .action s .badParam :=
  refuses_of_error actionCommand hheld rfl (by rw [actionCommand, h]; exact if_pos hcount)

/-- ACTION's last check, with at most six parameter bytes. -/
theorem action_slotDecides {e : EntryId} (hheld : s.resetHeld = false) (h : s.lineStation = .ok e)
    (hcount : (highByte (s.param 2)).toNat ≤ 6) : SlotDecides .action s :=
  slotDecides_of_takeSlot (f := actionCommand) (x := s.actionSlot e) hheld rfl
    (by rw [actionCommand, h]; exact if_neg (Nat.not_lt.mpr hcount))

/-- SEND's last two checks, its station not FAILED. -/
theorem send_recordDecides {e : EntryId} (hheld : s.resetHeld = false) (h : s.lineStation = .ok e) :
    RecordDecides .send s :=
  recordDecides_of_takeRecordSlot (f := sendCommand) (slot := s.sendSlot e) hheld rfl (by rw [sendCommand, h]; rfl)

/-- BROADCAST has only these two checks: it names no station (R160). -/
theorem broadcast_recordDecides (hheld : s.resetHeld = false) : RecordDecides .broadcast s :=
  recordDecides_of_takeRecordSlot (f := broadcastCommand) (slot := s.broadcastSlot) hheld rfl rfl

/-! ### The statement -/

/-- Settles O17: SEND, POLL and ACTION fail at their station, or what is left of them decides; BROADCAST has only what
is left of a SEND. -/
theorem lineCommandsAreChecked : Obligations.LineCommandsAreChecked := by
  intro s hheld
  have hbroadcast : RecordDecides .broadcast s := broadcast_recordDecides hheld
  refine ⟨fun c hc => ⟨fun haddr => ?_, fun hmin hmax hnone => ?_, fun e hnamed hfailed => ?_⟩,
    fun e hnamed hworks => ?_, hbroadcast.outOfRange, fun h hn => ⟨hbroadcast.badRecord h hn, hbroadcast.busy h hn,
      fun hr => (hbroadcast.ready h hn hr).full, fun hr => (hbroadcast.ready h hn hr).accepted⟩⟩
  · exact refuses_of_lineStation_error hc hheld (State.lineStation_of_error (State.namedEntry_badAddress haddr))
  · exact refuses_of_lineStation_error hc hheld (State.lineStation_of_error (State.namedEntry_noStation hmin hmax hnone))
  · exact refuses_of_lineStation_error hc hheld (State.lineStation_failed hnamed hfailed)
  · have hstation : s.lineStation = .ok e := State.lineStation_ok hnamed hworks
    have hpoll : SlotDecides .poll s := poll_slotDecides hheld hstation
    have hsend : RecordDecides .send s := send_recordDecides hheld hstation
    have haction := action_slotDecides hheld hstation
    exact ⟨action_refuses_badParam hheld hstation,
      hsend.outOfRange, fun h hn => ⟨hsend.badRecord h hn, hsend.busy h hn⟩,
      hpoll.full, fun hfull hcount => (haction hcount).full hfull, fun h hn hr => (hsend.ready h hn hr).full,
      fun hroom => ⟨hpoll.accepted hroom, fun hcount => (haction hcount).accepted hroom,
        fun h hn hr => (hsend.ready h hn hr).accepted hroom⟩⟩

end Sys2Proof.Machine
end

section
/-! PROOFS. The causes: what a write of CAUSE_ACK or CAUSE_ENABLE changes (R181, R182), and CAUSE and INT as the least
code pending and enabled (R180, R184). -/

namespace Sys2Proof.Machine

open Sys2Proof.Safety

variable (s : State)

/-! ### Acknowledging -/

/-- A code that names no latched cause acknowledges nothing (R182). -/
theorem State.acknowledge_other {v : Word} (h1 : v ≠ 1#16) (h2 : v ≠ 2#16) (h5 : v ≠ 5#16) : s.acknowledge v = s := by
  unfold State.acknowledge
  split
  next h => exact absurd (BitVec.eq_of_toNat_eq h) h1
  next h => exact absurd (BitVec.eq_of_toNat_eq h) h2
  next h => exact absurd (BitVec.eq_of_toNat_eq h) h5
  next => rfl

/-! ### The causes shown -/

/-- The cause of code n is pending: each code with its source (R149, R165, R180). -/
def PendingCause (n : Nat) : Prop :=
  (n = 1 ∧ s.host.stationLost = true) ∨ (n = 2 ∧ s.host.restraintCause = true) ∨
    (n = 3 ∧ s.queue.ready = true) ∨ (n = 4 ∧ s.inbound.list ≠ []) ∨ (n = 5 ∧ s.host.hostFault = true)

/-- The cause of code n is pending and enabled (R181). -/
def ShownCause (n : Nat) : Prop := PendingCause s n ∧ s.host.causeEnable.getLsbD (n - 1) = true

variable {s}

/-- A cause that is pending has a code of 1 to 5. -/
theorem PendingCause.code {n : Nat} (h : PendingCause s n) : 1 ≤ n ∧ n < 1 + 5 := by
  rcases h with ⟨rfl, -⟩ | ⟨rfl, -⟩ | ⟨rfl, -⟩ | ⟨rfl, -⟩ | ⟨rfl, -⟩ <;> decide

theorem ShownCause.code {n : Nat} (h : ShownCause s n) : 1 ≤ n ∧ n < 1 + 5 := h.1.code

/-- With no bit of CAUSE_ENABLE set no cause is shown. -/
theorem not_shownCause_of_disabled (h : s.host.causeEnable = 0#5) (n : Nat) : ¬ ShownCause s n := by
  rintro ⟨-, henabled⟩
  rw [h, BitVec.getLsbD_zero] at henabled
  cases henabled

variable (s)

/-- The model's list of pending causes holds each at its code. -/
theorem State.causePending_iff {n : Nat} (h1 : 1 ≤ n) (h5 : n < 1 + 5) :
    s.causePending n = true ↔ PendingCause s n := by
  obtain rfl | rfl | rfl | rfl | rfl : n = 1 ∨ n = 2 ∨ n = 3 ∨ n = 4 ∨ n = 5 := by omega
  all_goals simp [State.causePending, State.pendingCauses, PendingCause]

theorem State.causeShown_iff {n : Nat} (h1 : 1 ≤ n) (h5 : n < 1 + 5) : s.causeShown n = true ↔ ShownCause s n := by
  rw [State.causeShown, Bool.and_eq_true, s.causePending_iff h1 h5, ShownCause]

theorem State.causeShown_eq_false_iff {n : Nat} (h1 : 1 ≤ n) (h5 : n < 1 + 5) :
    (!s.causeShown n) = true ↔ ¬ ShownCause s n := by
  rw [Bool.not_eq_true', ← s.causeShown_iff h1 h5, Bool.not_eq_true]

/-- CAUSE searches the codes 1 to 5 upwards. -/
theorem State.cause_eq_find : s.cause = ((List.range' 1 5).find? s.causeShown).getD 0 := rfl

/-- What CAUSE is: the least code shown, or 0 when none is (R180). -/
theorem State.cause_cases :
    (ShownCause s s.cause ∧ ∀ m, m < s.cause → ¬ ShownCause s m) ∨ ((∀ n, ¬ ShownCause s n) ∧ s.cause = 0) := by
  rw [s.cause_eq_find]
  cases hfind : (List.range' 1 5).find? s.causeShown with
  | none =>
    refine .inr ⟨fun n hn => ?_, rfl⟩
    obtain ⟨h1, h5⟩ := hn.code
    exact (s.causeShown_eq_false_iff h1 h5).mp (List.find?_range'_eq_none.mp hfind n h1 h5) hn
  | some n =>
    obtain ⟨hshown, hmem, hleast⟩ := List.find?_range'_eq_some.mp hfind
    obtain ⟨h1, h5⟩ := List.mem_range'_1.mp hmem
    refine .inl ⟨(s.causeShown_iff h1 h5).mp hshown, fun m hmn hm => ?_⟩
    obtain ⟨hm1, hm5⟩ := hm.code
    exact (s.causeShown_eq_false_iff hm1 hm5).mp (hleast m hm1 hmn) hm

/-- The least code shown is CAUSE. -/
theorem State.cause_eq_of_least {n : Nat} (hn : ShownCause s n) (hleast : ∀ m, m < n → ¬ ShownCause s m) :
    s.cause = n := by
  rcases s.cause_cases with ⟨hcause, hbelow⟩ | ⟨hnone, -⟩
  · rcases Nat.lt_trichotomy s.cause n with hlt | heq | hgt
    · exact absurd hcause (hleast _ hlt)
    · exact heq
    · exact absurd hn (hbelow n hgt)
  · exact absurd hn (hnone n)

/-- CAUSE is 0 exactly while no cause is shown. -/
theorem State.cause_eq_zero_iff : s.cause = 0 ↔ ∀ n, ¬ ShownCause s n := by
  rcases s.cause_cases with ⟨hcause, -⟩ | ⟨hnone, hzero⟩
  · have hpos : 1 ≤ s.cause := hcause.code.1
    exact ⟨fun h => by omega, fun hnone => absurd hcause (hnone _)⟩
  · exact ⟨fun _ => hnone, fun _ => hzero⟩

/-- The interrupt output is driven low exactly while some cause is shown (R184). -/
theorem State.interrupt_iff : s.interrupt = true ↔ ∃ n, ShownCause s n := by
  rw [State.interrupt, bne_iff_ne, ne_eq, s.cause_eq_zero_iff, not_forall_not]

/-- With every enable at 0 the interrupt output is not driven low. -/
theorem State.interrupt_of_disabled (h : s.host.causeEnable = 0#5) : s.interrupt = false := by
  rw [eq_false_iff_not s.interrupt_iff, not_exists]
  exact not_shownCause_of_disabled h

/-! ### The statement -/

/-- Settles O33: each write by its effect, and CAUSE and INT by the causes shown. -/
theorem causesAndTheInterruptOutput : Obligations.CausesAndTheInterruptOutput := by
  refine ⟨fun s hheld => ?_, fun s => ?_⟩
  · have hack (v : Word) {t : State} (ht : s.acknowledge v = t) : Happens (.causeAck v) s t :=
      happens_of_effect (fun u => u.acknowledge v) hheld rfl ht
    exact ⟨hack 1#16 rfl, hack 2#16 rfl, hack 5#16 rfl, fun v h1 h2 h5 => hack v (s.acknowledge_other h1 h2 h5),
      fun v => happens_of_effect (fun t => t.writeCauseEnable v) hheld rfl rfl⟩
  · exact ⟨fun n => s.cause_eq_of_least, s.cause_eq_zero_iff.mpr,
      fun _ => ⟨s.interrupt_iff, s.interrupt_of_disabled⟩, rfl, (BitVec.setWidth_eq_append (by decide)).symm⟩

end Sys2Proof.Machine
end

section
/-! PROOFS. A write of WIN_DATA: which record it goes to, and which bytes it leaves (R126, R176, R178). -/

namespace Sys2Proof.Machine

open Sys2Proof.Safety

variable (s : State)

/-! ### Bytes of a record -/

/-- Storing a record's byte changes the bytes of the store alone. -/
theorem State.writeRecordByte_frame (h : Handle) (k : Nat) (v : Byte) :
    s.writeRecordByte h k v =
      { s with store := { s.store with bytes := (s.writeRecordByte h k v).store.bytes } } := by
  unfold State.writeRecordByte
  split <;> rfl

/-- A record's bytes lie where they lay before one was stored. -/
@[simp] theorem State.recordAddress_writeRecordByte (h g : Handle) (k j : Nat) (v : Byte) :
    (s.writeRecordByte h k v).recordAddress g j = s.recordAddress g j := by
  rw [State.recordAddress, State.record_writeRecordByte, State.recordAddress]

/-- The byte behind an even offset lies in the same block, at the next address (R120). -/
theorem State.recordAddress_succ_of_even (h : Handle) {k : Nat} (hk : k % 2 = 0) :
    s.recordAddress h (k + 1) = (s.recordAddress h k).map (· + 1) := by
  have hblock : (k + 1) / Config.blockBytes = k / Config.blockBytes := by
    rw [Config.blockBytes]; omega
  have hnext (b : Block) : blockAddress b (k + 1) = blockAddress b k + 1 := by
    rw [blockAddress, blockAddress, Config.blockBytes]; omega
  rw [State.recordAddress, State.recordAddress, hblock, Option.map_map]
  exact congrArg (Option.map · _) (funext hnext)

/-- The two bytes of a window word lie at different addresses. -/
theorem State.recordAddress_succ_ne (h : Handle) {k a : Nat} (hk : k % 2 = 0) (ha : s.recordAddress h k = some a) :
    s.recordAddress h (k + 1) ≠ some a := by
  rw [s.recordAddress_succ_of_even h hk, ha, Option.map_some, ne_eq, Option.some.injEq]
  exact Nat.succ_ne_self a

/-! ### The record written -/

/-- A selector above 63 names no record. -/
theorem State.windowTarget_outOfRange (h : 63 < s.host.winSelect.toNat) : s.windowTarget = none := by
  rw [State.windowTarget, (handleOfByte_none _).mpr h]

/-- The record selected takes a write while it is FILLING and the offset lies below its length (R178). -/
theorem State.windowTarget_of_handle {h : Handle} (hn : h.val = s.host.winSelect.toNat) :
    s.windowTarget =
      if (s.record h).state = .filling ∧ s.host.winOffset.toNat < (s.record h).length then some h else none := by
  rw [State.windowTarget, (handleOfByte_some _ _).mpr hn]

/-- With no record to take it, a write of WIN_DATA is dropped with a host fault (R178, R183). -/
theorem happens_winDataWrite_dropped (v : Word) (hheld : s.resetHeld = false) (h : s.windowTarget = none) :
    Happens (.winDataWrite v) s
      { s with host := { s.host with
          hostFault := true, faultKind := .windowWrite, winOffset := s.host.winOffset + 2#16 } } :=
  happens_of_effect (fun t => t.writeWindow v) hheld rfl (by rw [State.writeWindow, h]; rfl)

/-- A record that takes it has the word stored, and the offset rises by 2 (R176, R178). -/
theorem happens_winDataWrite_stored (v : Word) {h : Handle} (hheld : s.resetHeld = false)
    (ht : s.windowTarget = some h) : Happens (.winDataWrite v) s (s.storeWindow h v).advanceWindow :=
  happens_of_effect (fun t => t.writeWindow v) hheld rfl (by rw [State.writeWindow, ht])

/-! ### The bytes stored -/

/-- Storing a window word changes the bytes of the store alone. -/
theorem State.storeWindow_frame (h : Handle) (v : Word) :
    s.storeWindow h v = { s with store := { s.store with bytes := (s.storeWindow h v).store.bytes } } := by
  unfold State.storeWindow
  extract_lets k low
  have hlow : low = { s with store := { s.store with bytes := low.store.bytes } } := s.writeRecordByte_frame h k _
  split
  · calc low.writeRecordByte h (k + 1) (highByte v)
        = { low with store := { low.store with
              bytes := (low.writeRecordByte h (k + 1) (highByte v)).store.bytes } } := low.writeRecordByte_frame ..
      _ = _ := by rw [hlow]
  · exact hlow

/-- Every byte of the store after a window word is stored at an even offset: the high half only below the length. -/
theorem State.readByte_storeWindow (h : Handle) (v : Word) (a : Nat) (hbytes : BytesCanonical s)
    (heven : s.host.winOffset.toNat % 2 = 0) :
    readByte (s.storeWindow h v).store.bytes a =
      if s.recordAddress h s.host.winOffset.toNat = some a then lowByte v
      else if s.recordAddress h (s.host.winOffset.toNat + 1) = some a ∧
          s.host.winOffset.toNat + 1 < (s.record h).length then highByte v
      else readByte s.store.bytes a := by
  simp only [State.storeWindow]
  generalize s.host.winOffset.toNat = k at heven ⊢
  have hlow := s.readByte_writeRecordByte h k (lowByte v) a hbytes
  have hlowBytes := s.wf_writeRecordByte h k (lowByte v) hbytes
  by_cases hlength : k + 1 < (s.record h).length
  · rw [if_pos hlength, State.readByte_writeRecordByte _ _ _ _ _ hlowBytes, hlow, State.recordAddress_writeRecordByte]
    by_cases hk : s.recordAddress h k = some a
    · rw [if_neg (s.recordAddress_succ_ne h heven hk), if_pos hk, if_pos hk]
    · simp only [if_neg hk, and_iff_left hlength]
  · simp only [hlow, hlength, and_false, if_false]

/-! ### The statement -/

/-- Settles O37: the write is dropped when no record takes it; otherwise it changes the bytes that the word stored
changes, and the offset. -/
theorem windowWrites : Obligations.WindowWrites := by
  intro s v hheld hbytes
  refine ⟨fun hselect => happens_winDataWrite_dropped s v hheld (s.windowTarget_outOfRange hselect),
    fun h hn => ⟨fun hdrop => ?_, fun hfilling hoffset heven _ => ?_⟩⟩
  · refine happens_winDataWrite_dropped s v hheld ((s.windowTarget_of_handle hn).trans (if_neg ?_))
    rintro ⟨hfilling, hoffset⟩
    exact hdrop.elim (· hfilling) (Nat.not_le.mpr hoffset)
  · have htarget : s.windowTarget = some h := (s.windowTarget_of_handle hn).trans (if_pos ⟨hfilling, hoffset⟩)
    refine ⟨_, happens_winDataWrite_stored s v hheld htarget, ?_, fun a => s.readByte_storeWindow h v a hbytes heven⟩
    rw [State.advanceWindow_store, State.advanceWindow, s.storeWindow_frame h v]

end Sys2Proof.Machine
end

section
set_option Elab.async false
/-! PROOFS. The updates that the effect of every command is made of, each with what it may assume of the state it is
applied to; and the walk through the model that finds every effect to be a run of them. An invariant of the steps is then
one case for each update. -/

namespace Sys2Proof.Machine

open Sys2Proof.Safety

variable {d : Prop} {s t u : State}

/-! ### What an update may assume -/

/-- Each setup value of the line engine is as it was or in its range (R81, R100). -/
structure SetupFrom (l m : LineEngine) : Prop where
  rate : m.rate = l.rate ∨ m.rate ≠ 0#12 := by exact .inl rfl
  guardTime : m.guardTime = l.guardTime ∨ m.guardTime ≠ 0#4 := by exact .inl rfl
  gapTime : m.gapTime = l.gapTime ∨ 2 ≤ m.gapTime.toNat := by exact .inl rfl
  replyTimeout : m.replyTimeout = l.replyTimeout ∨ 2 ≤ m.replyTimeout.toNat := by exact .inl rfl

/-- The receiver is as it was; or no arrival belongs to a reply that it followed, and a frame it then stands in is a
sound one or the frame it stood in as a stray one (R91, R93, R136). -/
def State.ReceiverKept (s : State) (r : Receiver) : Prop :=
  r = s.line.rx ∨
    ((s.exchange = none ∨ s.inbound.arrival = none ∨ ∀ f, s.line.rx = .frame f → f.dest = .stray) ∧
      ∀ g, r = .frame g → FrameSound g ∨ ∃ f, s.line.rx = .frame f ∧ g = { f with dest := .stray })

/-- The exchange receives no reply, or its reply has no arrival (R136). -/
def State.ReplyOver (s : State) (x : Exchange) : Prop := x.phase ≠ .receiveReply ∨ s.inbound.arrival = none

/-- The entry is not VACANT, or the exchange in flight is with it. -/
def State.InUse (s : State) (e : EntryId) : Prop :=
  (s.entry e).state ≠ .vacant ∨ ∃ x, s.exchange = some x ∧ x.place = .station e

/-- Two entries that agree in the station's standing, its address, its limits, its open action and its list. -/
structure SameStation (a b : Entry) : Prop where
  state : b.state = a.state := by rfl
  address : b.address = a.address := by rfl
  failLimit : b.failLimit = a.failLimit := by rfl
  openAction : b.openAction = a.openAction := by rfl
  pendingList : b.pendingList = a.pendingList := by rfl
  inboundLimit : b.inboundLimit = a.inboundLimit := by rfl

/-- An entry's station as it was, its failures in a row not at the limit unless they were (R104), and a VACANT one still
blank (R1). -/
structure State.EntryKept (s : State) (e : EntryId) (E : Entry) : Prop extends SameStation (s.entry e) E where
  consecFail : E.consecFail = (s.entry e).consecFail ∨ E.consecFail = 0#4 ∨
    (E.consecFail = satInc (s.entry e).consecFail ∧ E.consecFail ≠ (s.entry e).failLimit) := by exact .inl rfl
  used : s.InUse e ∨ (s.entry e = Entry.vacant → E = Entry.vacant)

/-- A write of the arbiter from outside the choice: it ends no round, and runs the poll period timer in none (R75). -/
structure ArbiterKept (a b : Arbiter) : Prop where
  inProgress : a.roundInProgress = true → b.roundInProgress = true
  timer : b.pollTimer.running = true →
    b.roundInProgress = false ∨ (b.roundInProgress = a.roundInProgress ∧ b.pollTimer = a.pollTimer)
  position : b.roundInProgress = false → b.roundPosition = a.roundPosition

/-- The arrival in progress has the handle. -/
def State.Arriving (s : State) (h : Handle) : Prop := s.inbound.arrival.bind Arrival.handle = some h

/-! ### The updates -/

/-- The updates that effects are made of. `d` says that a reply's frame is being decoded, which is where an arrival begins,
grows and is accepted. -/
inductive Update (d : Prop) : State → State → Prop
  /-- The line engine. -/
  | line (s : State) (l : LineEngine) : SetupFrom s.line l → d ∨ s.ReceiverKept l.rx → Update d s { s with line := l }
  /-- The exchange in flight goes on. -/
  | exchange (s : State) (x y : Exchange) (old : s.exchange = some x) (done : d ∨ s.ReplyOver x)
      (kind : y.kind = x.kind := by rfl) (place : y.place = x.place := by rfl) (slot : y.slot = x.slot := by rfl) :
      Update d s (s.setExchange (some y))
  /-- The exchange in flight ends. -/
  | close (s : State) : (∀ x, s.exchange = some x → d ∨ s.ReplyOver x) → Update d s (s.setExchange none)
  /-- An entry whose station is as it was. -/
  | entry (s : State) (e : EntryId) (E : Entry) : s.EntryKept e E → Update d s (s.setEntry e E)
  /-- One command completes. -/
  | complete (s : State) (i : SlotId) (o : Outcome) (b : Byte) (n : Nat) (g : Option Handle) :
      Update d s (s.complete i o b n g)
  /-- The station on the line is lost, and the exchange ends with it (R107). -/
  | lose (s : State) (e : EntryId) (E : Entry) (b : Bool) (x : Exchange) : s.exchange = some x →
      x.place = .station e → SameStation (s.entry e) E → d ∨ s.ReplyOver x →
      Update d s (((s.setEntry e E).loseStation e b).setExchange none)
  /-- An ACTION is followed by probes (R50). -/
  | openAction (s : State) (e : EntryId) (x : Exchange) : d → s.exchange = some x → x.place = .station e →
      x.kind = .action → Update d s ((s.openAction e x.slot).setExchange none)
  /-- The open action ends (R54). -/
  | endAction (s : State) (e : EntryId) (x : Exchange) : d → s.exchange = some x → x.place = .station e →
      x.kind = .probe → Update d s ((s.setEntry e { s.entry e with
        state := .ready, openAction := none, probeTimer := .stopped }).setExchange none)
  /-- An arrival begins (R137). -/
  | beginArrival (s : State) (source : Byte) : d → s.inbound.arrival = none → Update d s (s.beginArrival source)
  /-- The arrival counts a byte, or stops storing. -/
  | arrival (s : State) (a b : Arrival) : d → s.inbound.arrival = some a → b.handle = a.handle →
      Update d s (s.setArrival (some b))
  /-- The arrival takes a block (R119). -/
  | appendBlock (s : State) (h : Handle) (b : Block) (rest : List Block) : d → s.Arriving h →
      s.store.freeList = b :: rest → Update d s (s.appendBlock h b)
  /-- The arrival's record is a byte longer. -/
  | lengthen (s : State) (h : Handle) : d → s.Arriving h →
      Update d s (s.setRecord h { s.record h with length := (s.record h).length + 1 })
  /-- A byte is stored in a record's chain. -/
  | writeByte (s : State) (h : Handle) (k : Nat) (v : Byte) : Update d s (s.writeRecordByte h k v)
  /-- The arrival's record joins the Inbound List (R144). -/
  | accept (s : State) (h : Handle) (n : Nat) : d → s.Arriving h → Update d s (s.acceptArrival h n)
  /-- The arrival ends without a record (R143). -/
  | discard (s : State) : Update d s s.discardArrival
  /-- A record waits again for its exchange (R128). -/
  | requeue (s : State) (h : Handle) : (s.record h).state = .sending → Update d s (s.moveRecord h .queued)
  /-- A slot in use whose command keeps its kind, its place and its record. -/
  | slot (s : State) (i : SlotId) (x y : Slot) : s.slot i = some x → y.kind = x.kind → y.place = x.place →
      y.handle = x.handle → Update d s (s.setSlot i (some y))
  /-- A line command takes a slot (R156 to R159). -/
  | takeSlot (s t : State) (x : Slot) (v : BitVec 6) : s.takeSlot x = .ok (t, v) →
      (∀ e, x.place = .station e → (s.entry e).state ≠ .failed ∧ (s.entry e).state ≠ .vacant) →
      (∀ h, x.handle = some h → (s.record h).state = .ready) → Update d s t
  /-- A station is attached (R12). -/
  | attach (s : State) (e : EntryId) (E : Entry) : (s.entry e).state = .vacant → E.state = .ready →
      (∃ a ∈ E.address, addressInRange a = true ∧ s.entryHolding a = none) → E.consecFail = 0#4 →
      E.failLimit ≠ 0#4 → E.openAction = none → E.pendingList = [] → E.inboundLimit ≤ Config.maxPayload →
      Update d s (s.setEntry e E)
  /-- A station is detached (R14). -/
  | detach (s : State) (e : EntryId) : s.engaged e = false →
      Update d s ((s.completeAll e (s.detachOutcome e)).setEntry e Entry.vacant)
  /-- A FAILED station is READY again (R17). -/
  | revive (s : State) (e : EntryId) : (s.entry e).state = .failed →
      Update d s (s.setEntry e (s.entry e).revived)
  /-- The counters of every entry are cleared (R169). -/
  | clearEntries (s : State) :
      Update d s { s with table := { s.table with entries := s.table.entries.map Entry.cleared } }
  /-- A grant of the close's own happening is taken back (R6). -/
  | takeBack (s : State) (e : EntryId) : Update d s (s.takeBack e)
  /-- ALLOC (R123). -/
  | allocate (s : State) (h : Handle) (n : Nat) : (s.record h).state = .free → n ≤ Config.maxPayload →
      blocksFor n ≤ s.store.freeList.length → Update d s (s.allocate h n)
  /-- SEAL (R124). -/
  | sealed (s : State) (h : Handle) : (s.record h).state = .filling → Update d s (s.moveRecord h .ready)
  /-- FREE (R125). -/
  | free (s : State) (h : Handle) : (s.record h).state = .filling ∨ (s.record h).state = .ready →
      Update d s (s.freeRecord h)
  /-- RELEASE (R148). -/
  | release (s : State) (h : Handle) (rest : List Handle) : s.inbound.list = h :: rest →
      Update d s (State.freeRecord { s with inbound := { s.inbound with list := rest } } h)
  /-- SET_MARKS (R132). -/
  | marks (s : State) (low high : Nat) : low ≤ 510 → low < high → high ≤ 512 →
      Update d s (State.evalMarks { s with store := { s.store with low := low, high := high } })
  /-- The host window, its offset still even if it was. -/
  | host (s : State) (h : HostWindow) :
      h.winOffset.getLsbD 0 = s.host.winOffset.getLsbD 0 ∨ h.winOffset.getLsbD 0 = false →
      Update d s { s with host := h }
  /-- The arbiter, outside the choice. -/
  | arbiter (s : State) (a : Arbiter) : ArbiterKept s.arbiter a → Update d s { s with arbiter := a }
  /-- The setup values of the Station Table, each as it was or in its range. -/
  | setup (s : State) (interval limit backoff : Byte) : interval = s.table.probeInterval ∨ interval ≠ 0#8 →
      limit = s.table.probeLimit ∨ limit ≠ 0#8 → backoff = s.table.holdBackoff ∨ backoff ≠ 0#8 →
      Update d s { s with table := { s.table with
        probeInterval := interval, probeLimit := limit, holdBackoff := backoff } }
  /-- The Lost Summary. -/
  | lostSummary (s : State) (w : Word) : Update d s { s with table := { s.table with lostSummary := w } }
  /-- A write of COALESCE (R165 to R167). -/
  | coalesce (s : State) (v : Word) : Update d s (s.writeCoalesce v)
  /-- The linger timer runs out (R165, R166). -/
  | linger (s : State) : Update d s s.lingerUp
  /-- PARAM0 to PARAM5 and CMD_RESULT. -/
  | registers (s : State) (p : Vector Word 6) (r : CmdResult) :
      Update d s { s with command := { s.command with params := p, result := r } }
  /-- The word that a read of WIN_DATA presented. -/
  | readData (s : State) (w : Word) : Update d s { s with readData := w }

/-- A run of updates. -/
abbrev Updates (d : Prop) : State → State → Prop := Relation.ReflTransGen (Update d)

theorem Updates.nil (s : State) : Updates d s s := .refl

theorem Update.run (h : Update d s t) : Updates d s t := .single h

/-! ### The line engine -/

/-- A write of the line engine that leaves the receiver and the setup values. -/
theorem State.setLine_updates (s : State) (l : LineEngine) (hset : SetupFrom s.line l := by exact {})
    (hrx : l.rx = s.line.rx := by rfl) : Updates d s { s with line := l } :=
  (Update.line s l hset (.inr (.inl hrx))).run

/-- A receiver that stands in no frame leaves one state for another. -/
theorem State.receiverKept_of_not_frame {r : Receiver} (h : ∀ f, s.line.rx ≠ .frame f) (hr : ∀ f, r ≠ .frame f) :
    s.ReceiverKept r :=
  .inr ⟨.inr (.inr fun f hf => absurd hf (h f)), fun g hg => absurd hg (hr g)⟩

/-- An exchange that receives no reply has no reply under way. -/
theorem State.replyOver_of_phase {x : Exchange} (h : x.phase ≠ .receiveReply) : s.ReplyOver x := .inl h

/-! ### Completions -/

theorem State.foldl_complete_updates (l : List SlotId) (f : SlotId → Outcome × Byte × Nat) (s : State) :
    Updates d s (l.foldl (fun t i => t.complete i (f i).1 (f i).2.1 (f i).2.2 none) s) := by
  induction l generalizing s with
  | nil => exact .nil s
  | cons i l ih => exact .head (.complete s i _ _ _ _) (ih _)

theorem State.completeHead_updates (s : State) (i : SlotId) (o : Outcome) (b : Byte) (n : Nat) (g : Option Handle) :
    Updates d s (s.completeHead i o b n g) := by
  unfold State.completeHead
  split
  · exact .nil s
  · split
    · exact .head (.complete s i o b n g) (State.foldl_complete_updates _ (fun _ => (.cancelled, 0#8, 0)) _)
    · exact (Update.complete s i o b n g).run

/-- Completing the head of a list reaches nothing but slots, lists, queue and store. -/
theorem State.completeHead_same (s : State) (i : SlotId) (o : Outcome) (b : Byte) (n : Nat) (g : Option Handle) :
    SameButCompletions s (s.completeHead i o b n g) := by
  unfold State.completeHead
  split
  · exact .refl s
  · split
    · exact (s.complete_same i o b n g).trans (State.foldl_complete_same _ (fun _ => (.cancelled, 0#8, 0)) _)
    · exact s.complete_same i o b n g

theorem State.completeDecision_updates (s : State) (x : Exchange) : Updates d s (s.completeDecision x) := by
  unfold State.completeDecision
  split
  · exact s.completeHead_updates _ _ _ _ _
  · exact .nil s

theorem State.completeDecision_same (s : State) (x : Exchange) : SameButCompletions s (s.completeDecision x) := by
  unfold State.completeDecision
  split
  · exact s.completeHead_same _ _ _ _ _
  · exact .refl s

/-! ### The end of an exchange -/

variable {x : Exchange}

theorem State.replyOver_of_inbound (h : t.inbound = s.inbound) (ho : d ∨ s.ReplyOver x) : d ∨ t.ReplyOver x := by
  rwa [State.ReplyOver, h]

/-- The exchange in flight ends. -/
theorem State.close_updates (hx : s.exchange = some x) (ho : d ∨ s.ReplyOver x) :
    Updates d s (s.setExchange none) :=
  (Update.close s fun y hy => by rw [hx] at hy; cases hy; exact ho).run

theorem State.requeueRecord_updates (s : State) (i : Option SlotId) : Updates d s (s.requeueRecord i) := by
  unfold State.requeueRecord
  split
  · split
    · next h => exact (Update.requeue s _ h).run
    · exact .nil s
  · exact .nil s

theorem State.closePending_updates (hx : s.exchange = some x) (ho : d ∨ s.ReplyOver x) :
    Updates d s (s.closePending x) := by
  have hsame := s.requeueRecord_sameButStore x.slot
  exact (s.requeueRecord_updates x.slot).trans
    (State.close_updates (hsame.exchange.trans hx) (State.replyOver_of_inbound hsame.inbound ho))

theorem State.closeDone_updates (hx : s.exchange = some x) (ho : d ∨ s.ReplyOver x) (o : Outcome) (b : Byte) (n : Nat)
    (g : Option Handle) : Updates d s (s.closeDone x o b n g) := by
  unfold State.closeDone
  split
  · next i _ =>
    have hsame := s.completeHead_same i o b n g
    exact (s.completeHead_updates i o b n g).trans
      (State.close_updates (hsame.exchange.trans hx) (State.replyOver_of_inbound hsame.inbound ho))
  · exact State.close_updates hx ho

theorem State.retry_updates (hx : s.exchange = some x) (ho : d ∨ s.ReplyOver x) (o : AttemptOutcome) :
    Updates d s (s.retry x o) :=
  (Update.exchange s x _ hx ho).run

/-! ### Reports to the Station Table -/

theorem SameStation.count (e : Entry) (o : AttemptOutcome) : SameStation e (e.count o) := by
  cases o <;> exact ⟨rfl, rfl, rfl, rfl, rfl, rfl⟩

/-- A report that does not lose the station keeps its entry (R104). -/
theorem State.entryKept_count {e : EntryId} {o : AttemptOutcome} (hx : s.exchange = some x)
    (hp : x.place = .station e)
    (ho : ¬ (o.failed = true ∧ ((s.entry e).count o).consecFail = ((s.entry e).count o).failLimit)) :
    s.EntryKept e ((s.entry e).count o) := by
  refine ⟨SameStation.count _ o, ?_, .inl (.inr ⟨x, hx, hp⟩)⟩
  by_cases hf : o.failed = true
  · have hne := not_and.mp ho hf
    rw [Entry.count_of_failed hf] at hne ⊢
    exact .inr (.inr ⟨rfl, hne⟩)
  · cases o <;> first | exact .inr (.inl rfl) | exact .inl rfl | exact absurd rfl hf

/-- A report of an outcome is a run of updates, but where it loses the station. -/
theorem State.report_updates (hx : s.exchange = some x) (o : AttemptOutcome) :
    Updates d s (s.report x.place o) ∧ (s.report x.place o).exchange = s.exchange ∧
        (s.report x.place o).inbound = s.inbound ∧ (s.report x.place o).line = s.line ∨
      ∃ e E, x.place = .station e ∧ o.failed = true ∧ SameStation (s.entry e) E ∧
        s.report x.place o = (s.setEntry e E).loseStation e false := by
  rcases s.report_cases x.place o with ⟨-, h⟩ | ⟨e, he, ⟨hf, -, h⟩ | ⟨ho, h⟩⟩ <;> rw [h]
  · exact .inl ⟨.nil s, rfl, rfl, rfl⟩
  · exact .inr ⟨e, _, he, hf, SameStation.count _ o, rfl⟩
  · exact .inl ⟨(Update.entry s e _ (State.entryKept_count hx he ho)).run, rfl, rfl, rfl⟩

/-- A report of OK or ABORTED is a run of updates. -/
theorem State.report_updates_of_not_failed (hx : s.exchange = some x) {o : AttemptOutcome} (hf : o.failed = false) :
    Updates d s (s.report x.place o) ∧ (s.report x.place o).exchange = s.exchange ∧
      (s.report x.place o).inbound = s.inbound ∧ (s.report x.place o).line = s.line := by
  rcases State.report_updates (d := d) hx o with h | ⟨_, _, _, h, _⟩
  · exact h
  · rw [hf] at h; cases h

/-- A report that closes the exchange, whether it loses the station or not. -/
theorem State.report_close_updates (hx : s.exchange = some x) (ho : d ∨ s.ReplyOver x) (o : AttemptOutcome) :
    Updates d s ((s.report x.place o).setExchange none) := by
  rcases State.report_updates (d := d) hx o with ⟨h, hxt, hin, -⟩ | ⟨e, E, he, -, hE, h⟩
  · exact h.trans (State.close_updates (hxt.trans hx) (State.replyOver_of_inbound hin ho))
  · rw [h]
    exact (Update.lose s e E false x hx he hE ho).run

theorem State.placeFailed_of_lost (s : State) (e : EntryId) (b : Bool) :
    (s.loseStation e b).placeFailed (.station e) = true := by
  simp [State.placeFailed, (s.loseStation_loses e b).state]

theorem State.failAttempt_updates (hx : s.exchange = some x) (ho : d ∨ s.ReplyOver x) (o : AttemptOutcome) :
    Updates d s (s.failAttempt x o) := by
  rcases State.report_updates (d := d) hx o with ⟨h, hxt, hin, -⟩ | ⟨e, E, he, -, hE, h⟩
  · have hxt := hxt.trans hx
    have ho := State.replyOver_of_inbound hin ho
    rcases s.failAttempt_cases x o with ⟨-, k⟩ | ⟨-, -, k⟩ | ⟨-, k⟩ | ⟨-, k⟩ <;> rw [k]
    · exact h.trans (State.close_updates hxt ho)
    · exact h.trans (State.closeDone_updates hxt ho _ _ _ _)
    · exact h.trans (State.closePending_updates hxt ho)
    · exact h.trans (State.retry_updates hxt ho o)
  · have hlost : (s.report x.place o).placeFailed x.place = true := by
      rw [h, he]; exact State.placeFailed_of_lost _ e false
    have k : s.failAttempt x o = (s.report x.place o).setExchange none := by
      simp [State.failAttempt, hlost]
    rw [k, h]
    exact (Update.lose s e E false x hx he hE ho).run

theorem State.failAnswer_updates (hx : s.exchange = some x) (ho : d ∨ s.ReplyOver x) :
    Updates d s (s.failAnswer x) := by
  have hsame := s.completeDecision_same x
  exact (s.completeDecision_updates x).trans
    (State.report_close_updates (hsame.exchange.trans hx) (State.replyOver_of_inbound hsame.inbound ho) .echo)

/-! ### Echoes -/

theorem State.echoComplete_updates (s : State) : Updates d s s.echoComplete := by
  unfold State.echoComplete
  split
  · next x hx =>
    split
    · next hp =>
      have ho : d ∨ s.ReplyOver x := .inr (.inl (by rw [hp]; nofun))
      split
      · exact State.closeDone_updates hx ho _ _ _ _
      · exact .head (.exchange s x { x with phase := .awaitReply } hx ho)
          (State.setLine_updates (s.setExchange _) { s.line with replyTimer := s.line.replyTimeout })
    · next hp =>
      have hsame := s.completeDecision_same x
      refine (s.completeDecision_updates x).trans (State.close_updates (hsame.exchange.trans hx) ?_)
      exact .inr (.inl (by rw [hp]; nofun))
    all_goals exact .nil s
  · exact .nil s

theorem State.echoFailed_updates (s : State) : Updates d s s.echoFailed := by
  rcases s.echoFailed_cases with ⟨x, hx, hp, h⟩ | ⟨x, hx, hp, h⟩ | ⟨-, h⟩ <;> rw [h]
  · exact State.failAttempt_updates hx (.inr (.inl (by rw [hp]; nofun))) .echo
  · exact State.failAnswer_updates hx (.inr (.inl (by rw [hp]; nofun)))

theorem State.echoFault_updates (h : s.line.rx = .echo) : Updates d s s.echoFault := by
  rw [State.echoFault_eq]
  refine .head (.line s _ {} (.inr ?_)) (State.echoFailed_updates _)
  exact State.receiverKept_of_not_frame (fun f hf => by rw [h] at hf; cases hf) nofun

/-! ### Replies -/

/-- The line engine has no part in the end of an arrival. -/
theorem State.discardArrival_setLine (s : State) (l : LineEngine) :
    State.discardArrival { s with line := l } = { s.discardArrival with line := l } := by
  rcases s.discardArrival_cases with ⟨ha, e⟩ | ⟨a, ha, hh, e⟩ | ⟨a, h, ha, hh, e⟩ <;> rw [e]
  · simp [State.discardArrival, ha]
  · simp [State.discardArrival, ha, hh, State.setArrival]
  · have e' : State.discardArrival { s with line := l } = (State.freeRecord { s with line := l } h).setArrival none := by
      simp [State.discardArrival, ha, hh]
    rw [e']
    simp only [State.freeRecord, State.returnBlocks_eq]
    rfl

theorem State.discardArrival_arrival (s : State) : s.discardArrival.inbound.arrival = none := by
  rw [(s.discardArrival_discarded).1]

theorem State.discardArrival_exchange (s : State) : s.discardArrival.exchange = s.exchange :=
  s.discardArrival_discarded.2.1

/-- The receiver leaves a reply's frame, whose arrival ends without a record, and the attempt fails. -/
theorem State.dropReply_updates (s : State) (l : LineEngine) (hset : SetupFrom s.line l) (hrx : l.rx = .hunt)
    (hx : s.exchange = some x) (o : AttemptOutcome) :
    Updates d s ((State.discardArrival { s with line := l }).failAttempt x o) := by
  rw [State.discardArrival_setLine]
  have hline : s.discardArrival.line = s.line := s.discardArrival_discarded.2.2.2.2.2.2.1
  refine .head (.discard s) (.head (.line s.discardArrival l (by rw [hline]; exact hset) (.inr ?_)) ?_)
  · exact .inr ⟨.inr (.inl s.discardArrival_arrival), fun g hg => by rw [hrx] at hg; cases hg⟩
  · exact State.failAttempt_updates (s := { s.discardArrival with line := l }) (s.discardArrival_exchange.trans hx)
      (.inr (.inr s.discardArrival_arrival)) o

/-- The entry of the station on the line, its station as it was and its failures in a row too. -/
theorem State.engagedEntry_updates {e : EntryId} (hx : s.exchange = some x) (hp : x.place = .station e) {E : Entry}
    (hE : SameStation (s.entry e) E) (hc : E.consecFail = (s.entry e).consecFail) : Updates d s (s.setEntry e E) :=
  (Update.entry s e E ⟨hE, .inl hc, .inl (.inr ⟨x, hx, hp⟩)⟩).run

theorem SameStation.afterVerdict (e : Entry) (v : Verdict) : SameStation e (e.afterVerdict v) := {}

theorem State.loadBackoff_updates {e : EntryId} (hx : s.exchange = some x) (hp : x.place = .station e) :
    Updates d s (s.loadBackoff e) :=
  State.engagedEntry_updates hx hp {} rfl

theorem State.flipTx_updates {e : EntryId} (hx : s.exchange = some x) (hp : x.place = .station e) :
    Updates d s (s.setEntry e (s.entry e).flipTx) :=
  State.engagedEntry_updates hx hp {} rfl

theorem State.synced_updates {e : EntryId} (hx : s.exchange = some x) (hp : x.place = .station e) :
    Updates d s (s.synced e) :=
  State.engagedEntry_updates hx hp {} rfl

/-- A WORKING reply to a PROBE, which ends the exchange (R55). -/
theorem State.probeWorking_updates {e : EntryId} (hd : d) (hx : s.exchange = some x) (hp : x.place = .station e) :
    Updates d s ((s.probeWorking e).setExchange none) := by
  unfold State.probeWorking
  extract_lets _ counted
  have hcounted : Updates d s counted :=
    State.engagedEntry_updates hx hp {} rfl
  split
  · have hloaded : Updates d counted
        (counted.setEntry e { counted.entry e with probeTimer := .load counted.table.probeInterval }) :=
      State.engagedEntry_updates (s := counted) hx hp {} rfl
    exact (hcounted.trans hloaded).trans (State.close_updates (s := counted.setEntry e _) hx (.inl hd))
  · exact (Update.lose s e _ true x hx hp {} (.inl hd)).run

/-- A DONE reply to a PROBE, which ends the exchange (R54). -/
theorem State.probeDone_updates {e : EntryId} (hd : d) (hx : s.exchange = some x) (hp : x.place = .station e)
    (hk : x.kind = .probe) (r : Byte) : Updates d s ((s.probeDone e r).setExchange none) := by
  unfold State.probeDone
  split
  · next i _ =>
    have hsame := s.completeHead_same i .doneOk r (s.entry e).probeCount.toNat none
    exact (s.completeHead_updates i .doneOk r (s.entry e).probeCount.toNat none).trans
      (Update.endAction _ e x hd (hsame.exchange.trans hx) hp hk).run
  · exact (Update.endAction s e x hd hx hp hk).run

theorem decideArrival_accepted {e : Entry} {a : Option Arrival} {n : Nat} {h : Handle}
    (hv : decideArrival e a n = .accepted h) :
    ∃ b, a = some b ∧ b.handle = some h ∧ b.stop = none ∧ n ≤ e.inboundLimit := by
  unfold decideArrival at hv
  by_cases hl : e.inboundLimit < n
  · rw [if_pos hl] at hv
    cases hv
  rw [if_neg hl] at hv
  by_cases hm : e.lengthMode = .exact ∧ n < e.inboundLimit
  · rw [if_pos hm] at hv
    cases hv
  rw [if_neg hm] at hv
  rcases a with _ | ⟨_ | g, source, seen, _ | _ | _ | _ | _⟩ <;> cases hv
  exact ⟨_, rfl, rfl, rfl, Nat.le_of_not_lt hl⟩

theorem State.decideData_updates {e : EntryId} (hd : d) (hx : s.exchange = some x) (hp : x.place = .station e)
    (h : Header) (n : Nat) : Updates d s (s.decideData x e h n) := by
  unfold State.decideData
  extract_lets told verdict flipped
  have hreport := State.report_updates_of_not_failed (d := d) hx (o := .ok) rfl
  have htold : Updates d s told := hreport.1
  have hxt : told.exchange = s.exchange := hreport.2.1
  have hflipped : Updates d s flipped := htold.trans
    (State.engagedEntry_updates (hxt.trans hx) hp (.afterVerdict _ verdict) rfl)
  have hacted : Updates d flipped (flipped.actOnVerdict verdict n) ∧
      (flipped.actOnVerdict verdict n).exchange = flipped.exchange := by
    cases hv : verdict with
    | accepted g =>
      refine ⟨(Update.accept flipped g n hd ?_).run, rfl⟩
      have hacc : decideArrival (told.entry e) told.inbound.arrival n = .accepted g := by
        simp only [verdict] at hv
        split at hv
        · exact hv
        · cases hv
      obtain ⟨b, ha, hb, -, -⟩ := decideArrival_accepted hacc
      show flipped.inbound.arrival.bind Arrival.handle = _
      rw [show flipped.inbound = told.inbound from rfl, ha]
      exact hb
    | _ => exact ⟨(Update.discard flipped).run, flipped.discardArrival_exchange⟩
  refine hflipped.trans (hacted.1.trans (Update.exchange _ x _ ?_ (.inl hd)).run)
  exact hacted.2.trans (hxt.trans hx)

/-- The effects of a reply evaluated OK are a run of updates (R35 to R38, R49, R54, R55). -/
theorem State.replyOk_updates (hd : d) (hx : s.exchange = some x) (k : FrameKind) (h : Header) (n : Nat) :
    Updates d s (s.replyOk x k h n) := by
  unfold State.replyOk
  split
  · exact State.close_updates hx (.inl hd)
  · next e he =>
    extract_lets told byte
    have hreport := State.report_updates_of_not_failed (d := d) hx (o := .ok) rfl
    have htold : Updates d s told := hreport.1
    have hxt : told.exchange = some x := hreport.2.1.trans hx
    have hclosed : Updates d s (told.setExchange none) := htold.trans (State.close_updates hxt (.inl hd))
    have hflipped (o b) : Updates d s ((told.setEntry e (told.entry e).flipTx).closeDone x o b 0 none) :=
      (htold.trans (State.flipTx_updates hxt he)).trans (State.closeDone_updates (s := told.setEntry e _) hxt (.inl hd) o b 0 none)
    have hheld : Updates d s ((told.loadBackoff e).closePending x) :=
      (htold.trans (State.loadBackoff_updates hxt he)).trans (State.closePending_updates (s := told.loadBackoff e) hxt (.inl hd))
    split
    · exact hflipped _ _
    · exact hflipped _ _
    · exact hflipped _ _
    · exact hflipped _ _
    · next hk => exact htold.trans (Update.openAction told e x hd hxt he hk).run
    · exact hheld
    · exact hheld
    · exact (htold.trans (State.synced_updates hxt he)).trans (State.close_updates (s := told.synced e) hxt (.inl hd))
    · exact htold.trans (State.closeDone_updates hxt (.inl hd) _ _ _ _)
    · exact hclosed
    · exact State.decideData_updates hd hx he h n
    · exact State.decideData_updates hd hx he h n
    · exact htold.trans (State.probeWorking_updates hd hxt he)
    · next hk => exact htold.trans (State.probeDone_updates hd hxt he hk _)
    · exact hclosed

theorem State.closeReply_updates (hd : d) (s : State) (f : InFrame) : Updates d s (s.closeReply f) := by
  rcases s.closeReply_cases f with ⟨-, h⟩ | ⟨x, hx, ⟨k, -, h⟩ | ⟨-, h⟩⟩
  · rw [h]
  · rw [h]
    exact State.replyOk_updates hd hx k _ _
  · rw [h]
    exact .head (.discard s) (State.failAttempt_updates (s.discardArrival_exchange.trans hx) (.inl hd) _)

theorem State.noReply_updates (s : State) : Updates d s s.noReply := by
  unfold State.noReply
  split
  · next x hx =>
    split
    · next hp => exact State.failAttempt_updates hx (.inr (.inl (by rw [hp]; nofun))) .noReply
    all_goals exact .nil s
  · exact .nil s

/-! ### LINE_ABORT -/

theorem State.cutTransmission_updates (s : State) : Updates d s s.cutTransmission := by
  by_cases h : s.line.rx = .echo
  · rw [s.cutTransmission_eq h]
    refine (Update.line s _ {} (.inr ?_)).run
    exact State.receiverKept_of_not_frame (fun f hf => by rw [h] at hf; cases hf) nofun
  · rw [s.cutTransmission_else h]

/-- What the abort does by the phase it finds leaves the exchange in flight, whose reply, if it received one, has no
arrival left (R45). -/
theorem State.abortPhase_updates (hx : s.exchange = some x) :
    Updates d s (s.abortPhase x.phase) ∧ (s.abortPhase x.phase).exchange = some x ∧
      (s.abortPhase x.phase).ReplyOver x := by
  have hcut : s.cutTransmission.exchange = s.exchange := by unfold State.cutTransmission; split <;> rfl
  cases hp : x.phase with
  | guard => exact ⟨.nil s, hx, .inl (by rw [hp]; nofun)⟩
  | transmit => exact ⟨s.cutTransmission_updates, hcut.trans hx, .inl (by rw [hp]; nofun)⟩
  | awaitReply => exact ⟨s.setLine_updates _ , hx, .inl (by rw [hp]; nofun)⟩
  | answerGuard => exact ⟨.nil s, hx, .inl (by rw [hp]; nofun)⟩
  | answer => exact ⟨s.cutTransmission_updates, hcut.trans hx, .inl (by rw [hp]; nofun)⟩
  | receiveReply =>
    have hdone : Updates d s s.discardArrival := (Update.discard s).run
    have hxd := s.discardArrival_exchange.trans hx
    simp only [State.abortPhase]
    split
    · next f hf =>
      refine ⟨hdone.trans (Update.line s.discardArrival _ {} (.inr ?_)).run, hxd,
        .inr s.discardArrival_arrival⟩
      exact .inr ⟨.inr (.inl s.discardArrival_arrival), fun g hg => .inr ⟨f, hf, (Receiver.frame.inj hg).symm⟩⟩
    all_goals exact ⟨hdone, hxd, .inr s.discardArrival_arrival⟩

theorem State.needSync_updates (hx : s.exchange = some x) : Updates d s (s.needSync x.place) := by
  cases hp : x.place with
  | broadcast => exact .nil s
  | station e =>
    exact (Update.entry s e _ { used := .inl (.inr ⟨x, hx, hp⟩) }).run

theorem State.needSync_same (s : State) (p : Place) :
    (s.needSync p).exchange = s.exchange ∧ (s.needSync p).inbound = s.inbound := by
  cases p <;> exact ⟨rfl, rfl⟩

theorem State.abortExchange_updates (s : State) : Updates d s s.abortExchange := by
  unfold State.abortExchange
  split
  · exact .nil s
  · next x hx =>
    obtain ⟨hcut, hxc, ho⟩ := State.abortPhase_updates (d := d) hx
    generalize s.abortPhase x.phase = cut at hcut hxc ho
    obtain ⟨htold, hxt, hin, -⟩ := State.report_updates_of_not_failed (d := d) hxc (o := .aborted) rfl
    generalize cut.report x.place .aborted = told at htold hxt hin
    obtain ⟨hxs, hins⟩ := told.needSync_same x.place
    have hx' : told.exchange = some x := hxt.trans hxc
    refine ((hcut.trans htold).trans (State.needSync_updates hx')).trans
      (State.closePending_updates (hxs.trans hx') (.inr ?_))
    rwa [State.ReplyOver, hins, hin]

end Sys2Proof.Machine
end

section
set_option Elab.async false
/-! PROOFS. The walk goes on: received characters, timers, the host's writes and the commands taken through COMMAND; and
what every command of the table is, as a run of updates and an end. -/

namespace Sys2Proof.Machine

open Sys2Proof.Safety

variable {d : Prop} {s t u : State}

/-! ### Inside a frame -/

theorem State.setReceiver_updates (hd : d) (s : State) (r : Receiver) : Updates d s (s.setReceiver r) :=
  (Update.line s _ {} (.inl hd)).run

theorem State.codingFault_updates (hd : d) (s : State) (f : InFrame) : Updates d s (s.codingFault f) :=
  (Update.line s _ {} (.inl hd)).run

theorem State.countCoding_updates (s : State) : Updates d s s.countCoding := s.setLine_updates _

theorem State.storeArrivalByte_updates (hd : d) {a : Arrival} {h : Handle} (ha : s.inbound.arrival = some a)
    (hh : a.handle = some h) (v : Byte) : Updates d s (s.storeArrivalByte a h v) := by
  have hin : (s.writeRecordByte h a.seen v).inbound = s.inbound := by
    unfold State.writeRecordByte
    split <;> rfl
  have harr : (s.writeRecordByte h a.seen v).inbound.arrival = some a := by rw [hin, ha]
  refine .head (.writeByte s h a.seen v) ?_
  refine .head (.lengthen (s.writeRecordByte h a.seen v) h hd (by rw [State.Arriving, harr]; exact hh)) ?_
  refine (Update.arrival _ a { a with seen := a.seen + 1 } hd ?_ rfl).run
  exact harr

theorem State.takePayloadByte_updates (hd : d) (s : State) (limit : Nat) (v : Byte) :
    Updates d s (s.takePayloadByte limit v) := by
  cases ha : s.inbound.arrival with
  | none =>
    have : s.takePayloadByte limit v = s := by simp [State.takePayloadByte, ha]
    rw [this]
  | some a =>
    have hcount (c : Option StopCause) : Updates d s (s.setArrival (some { a with seen := a.seen + 1, stop := c })) :=
      (Update.arrival s a { a with seen := a.seen + 1, stop := c } hd ha rfl).run
    rcases s.takePayloadByte_cases limit v a ha with ⟨-, h⟩ | ⟨g, -, hg, ⟨-, h⟩ | ⟨-, -, -, h⟩ | ⟨b, rest, -, -, hf, h⟩ |
      ⟨-, -, h⟩⟩ <;> rw [h]
    · exact hcount a.stop
    · exact hcount (some .limit)
    · exact hcount (some .noBlock)
    · have hin : (s.appendBlock g b).inbound = s.inbound := by
        simp [State.appendBlock, State.takeBlocks_eq]
      exact .head (.appendBlock s g b rest hd (by rw [State.Arriving, ha]; exact hg) hf)
        (State.storeArrivalByte_updates (s := s.appendBlock g b) hd (by rw [hin, ha]) hg v)
    · exact State.storeArrivalByte_updates hd ha hg v

theorem State.handHeader_updates (hd : d) (s : State) (h : Header) (r : Bool) : Updates d s (s.handHeader h r) := by
  unfold State.handHeader
  split
  · next x hx =>
    extract_lets held
    have hheld : Updates d s held := (Update.exchange s x { x with header := some h } hx (.inl hd)).run
    split
    · split
      · next hb =>
        refine hheld.trans (Update.beginArrival held h.src hd ?_).run
        simp only [Bool.and_eq_true, Option.isNone_iff_eq_none] at hb
        exact hb.1.2
      · exact hheld
    · exact hheld
  · exact .nil s

theorem State.handPayload_updates (hd : d) (s : State) (v : Byte) : Updates d s (s.handPayload v) := by
  unfold State.handPayload
  split
  · next x hx =>
    extract_lets held
    have hheld : Updates d s held := (Update.exchange s x _ hx (.inl hd)).run
    split
    · exact hheld.trans (State.takePayloadByte_updates hd held _ v)
    · exact hheld
  · exact .nil s

theorem State.decodeByte_updates (hd : d) (s : State) (f : InFrame) (v : Byte) : Updates d s (s.decodeByte f v) := by
  unfold State.decodeByte
  split
  · exact State.setReceiver_updates hd s _
  split
  · exact State.codingFault_updates hd s _
  extract_lets held kept headed
  have hkept : Updates d s kept := State.setReceiver_updates hd s _
  have hheaded : Updates d s headed := by
    simp only [headed]
    split
    · split
      · exact hkept.trans (State.handHeader_updates hd kept _ _)
      · exact hkept
    · exact hkept
  split
  · exact hkept
  · split
    · exact hheaded.trans (State.handPayload_updates hd headed _)
    · exact hheaded

theorem State.restartArrival_updates (hd : d) (s : State) : Updates d s s.restartArrival := by
  unfold State.restartArrival
  split
  · next a ha =>
    split
    · exact (Update.arrival s a { a with stop := some .restart } hd ha rfl).run
    · exact .nil s
  · exact .nil s

theorem State.restartFrame_updates (hd : d) (s : State) (f : InFrame) : Updates d s (s.restartFrame f) := by
  unfold State.restartFrame
  extract_lets shifted restarted
  have hshifted : Updates d s shifted := by
    simp only [shifted]
    split
    · exact s.countCoding_updates
    · exact .nil s
  have hrestarted : Updates d s restarted := hshifted.trans (State.codingFault_updates hd shifted _)
  split
  · exact hrestarted.trans (State.restartArrival_updates hd restarted)
  · exact hrestarted

theorem State.closeFrame_updates (hd : d) (s : State) (f : InFrame) : Updates d s (s.closeFrame f) := by
  cases hf : f.dest with
  | reply =>
    rw [s.closeFrame_reply f hf]
    exact .head (.line s _ {} (.inl hd)) (State.closeReply_updates hd _ f)
  | stray =>
    rw [s.closeFrame_stray f hf]
    exact (Update.line s _ {} (.inl hd)).run

theorem State.decodeGood_updates (hd : d) (s : State) (f : InFrame) (v : Byte) : Updates d s (s.decodeGood f v) := by
  unfold State.decodeGood
  extract_lets plain
  split
  · exact State.restartFrame_updates hd s f
  split
  · split
    · exact s.countCoding_updates.trans (State.closeFrame_updates hd _ _)
    · exact State.closeFrame_updates hd s f
  split
  · split
    · exact State.decodeByte_updates hd s _ _
    · exact State.codingFault_updates hd s _
  split
  · exact State.setReceiver_updates hd s _
  · exact State.decodeByte_updates hd s f v

theorem State.decodeCharacter_updates (hd : d) (s : State) (f : InFrame) (v : Byte) (good : Bool) :
    Updates d s (s.decodeCharacter f v good) := by
  have htimed : Updates d s s.loadGap := s.setLine_updates _
  unfold State.decodeCharacter
  extract_lets timed
  split
  · exact htimed.trans (State.decodeGood_updates hd timed f v)
  · exact htimed.trans (State.codingFault_updates hd timed _)

/-! ### Outside a frame -/

theorem State.compareEcho_updates (h : s.line.rx = .echo) (v : Byte) (good : Bool) :
    Updates d s (s.compareEcho v good) := by
  unfold State.compareEcho
  split
  · exact State.echoFault_updates h
  · next rest _ =>
    split
    · extract_lets _ matched
      have hmatched : Updates d s matched := s.setLine_updates { s.line with echoList := rest }
      split
      · refine hmatched.trans (.head (.line matched _ {} (.inr ?_)) (State.echoComplete_updates _))
        exact State.receiverKept_of_not_frame (fun f hf => by rw [show matched.line.rx = .echo from h] at hf; cases hf)
          nofun
      · exact hmatched
    · exact State.echoFault_updates h

theorem InFrame.begin_sound (dest : FrameDest) (r : Bool) : FrameSound (.begin dest r) := by
  simp [FrameSound, InFrame.begin]

/-- A Marker in HUNT opens a frame with a sound beginning (R91). -/
theorem State.openFrame_updates (h : s.line.rx = .hunt) : Updates d s s.openFrame := by
  have hopen (u : State) (hu : u.line.rx = .hunt) (dest : FrameDest) :
      Updates d u (u.setReceiver (.frame (.begin dest false))).loadGap := by
    refine (Update.line u { u.line with rx := .frame (.begin dest false), gapTimer := u.line.gapTime } {} (.inr ?_)).run
    refine .inr ⟨.inr (.inr fun f hf => by rw [hu] at hf; cases hf), fun g hg => .inl ?_⟩
    rw [← Receiver.frame.inj hg]
    exact InFrame.begin_sound dest false
  unfold State.openFrame
  extract_lets opened
  split
  · next x hx =>
    split
    · next hp =>
      have hwait : Updates d s { s with
          exchange := some { x with phase := .receiveReply }, line := { s.line with replyTimer := 0#8 } } :=
        .head (.exchange s x { x with phase := .receiveReply } hx (.inr (.inl (by rw [hp]; nofun))))
          (State.setLine_updates (s.setExchange _) { s.line with replyTimer := 0#8 })
      refine hwait.trans (hopen _ ?_ .reply)
      exact h
    · exact hopen s h .stray
  · exact hopen s h .stray

/-- A reply's frame, or a stray one, is being decoded. -/
def State.Decodes (s : State) (c : Instr) : Prop :=
  (∃ v p b, c = .characterReceived v p b) ∧ ∃ f, s.line.rx = .frame f

theorem State.receive_updates (s : State) (v : Byte) (p b : Bool) :
    Updates (s.Decodes (.characterReceived v p b)) s (s.receive v p b) := by
  unfold State.receive
  split
  · exact .nil s
  · extract_lets good _ heard
    have hheard : Updates (s.Decodes (.characterReceived v p b)) s heard :=
      s.setLine_updates { s.line with lineHeld := !b, guardTimer := s.line.guardTime }
    split
    · next h =>
      split
      · exact hheard.trans (State.openFrame_updates h)
      · exact hheard
    · next f h => exact hheard.trans (State.decodeCharacter_updates ⟨⟨v, p, b, rfl⟩, f, h⟩ heard f v good)
    · next h => exact hheard.trans (State.compareEcho_updates (s := heard) h v good)
    · exact hheard

/-! ### The other happenings of the line, and the timers -/

theorem State.inputReturn_updates (s : State) : Updates d s s.inputReturn := by
  unfold State.inputReturn
  split
  · exact s.setLine_updates { s.line with lineHeld := false, guardTimer := s.line.guardTime }
  · exact .nil s

theorem State.transmitNext_updates (s : State) : Updates d s s.transmitNext := by
  unfold State.transmitNext
  split
  · split
    · exact s.setLine_updates _
    · exact .nil s
  · exact .nil s

theorem State.finishSending_updates (s : State) : Updates d s s.finishSending := by
  unfold State.finishSending
  split
  · split
    · exact s.setLine_updates _
    · exact .nil s
  · exact .nil s

theorem State.replyTimeUp_updates (s : State) : Updates d s s.replyTimeUp := by
  unfold State.replyTimeUp
  split
  · exact .nil s
  · exact (s.setLine_updates { s.line with replyTimer := 0#8 }).trans (State.noReply_updates _)

theorem State.gapTimeUp_updates (s : State) : Updates d s s.gapTimeUp := by
  unfold State.gapTimeUp
  split
  · exact .nil s
  · split
    · next f hf =>
      have hleave (h : s.exchange = none ∨ s.inbound.arrival = none ∨ ∀ g, s.line.rx = .frame g → g.dest = .stray) :
          Updates d s (s.setReceiver .hunt).stopGap :=
        (Update.line s { s.line with rx := .hunt, gapTimer := 0#4 } {} (.inr (.inr ⟨h, nofun⟩))).run
      cases hdest : f.dest with
      | reply =>
        simp only [State.gapReply]
        split
        · next x hx =>
          exact s.dropReply_updates { s.line with rx := .hunt, gapTimer := 0#4 } {} rfl hx .gap
        · next hx => exact hleave (.inl hx)
      | stray => exact hleave (.inr (.inr fun g hg => by rw [hf] at hg; cases hg; exact hdest))
    all_goals exact .nil s

theorem State.echoOverdue_updates (s : State) : Updates d s s.echoOverdue := by
  unfold State.echoOverdue
  split
  · next h =>
    split
    · exact .nil s
    · exact State.echoFault_updates h
  all_goals exact .nil s

theorem State.drainOver_updates (s : State) : Updates d s s.drainOver := by
  unfold State.drainOver
  split
  · next h =>
    split
    · refine (Update.line s _ {} (.inr ?_)).run
      exact State.receiverKept_of_not_frame (fun f hf => by rw [h] at hf; cases hf) nofun
    · exact .nil s
  all_goals exact .nil s

theorem State.setArbiter_updates (s : State) {a : Arbiter} (h : ArbiterKept s.arbiter a) :
    Updates d s { s with arbiter := a } := (Update.arbiter s a h).run

theorem State.pollPeriodUp_updates (s : State) : Updates d s s.pollPeriodUp := by
  unfold State.pollPeriodUp
  split
  · exact s.setArbiter_updates ⟨fun _ => rfl, fun h => absurd (show false = true from h) nofun, nofun⟩
  · exact .nil s

theorem State.backoffUp_updates (s : State) (e : EntryId) : Updates d s (s.backoffUp e) :=
  (Update.entry s e _ { used := .inr fun h => by rw [h]; rfl }).run

theorem State.probeTimeUp_updates (s : State) (e : EntryId) : Updates d s (s.probeTimeUp e) :=
  (Update.entry s e _ { used := .inr fun h => by rw [h]; rfl }).run

/-! ### The host's writes -/

/-- Running the poll period timer where no round is in progress (R75). -/
theorem Arbiter.startPeriod_kept {a b : Arbiter} (hp : b.roundInProgress = a.roundInProgress)
    (ht : b.pollTimer = a.pollTimer) (hr : b.roundPosition = a.roundPosition) : ArbiterKept a b.startPeriod := by
  unfold Arbiter.startPeriod
  split
  · next h =>
    simp only [Bool.and_eq_true, Bool.not_eq_true'] at h
    exact ⟨fun k => by rw [← k, ← hp], fun _ => .inl h.1.1, fun _ => hr⟩
  · exact ⟨fun k => by rw [← k, ← hp], fun _ => .inr ⟨hp, ht⟩, fun _ => hr⟩

theorem State.setHost_updates (s : State) {h : HostWindow} (heq : h.winOffset = s.host.winOffset := by rfl) :
    Updates d s { s with host := h } := (Update.host s h (.inl (by rw [heq]))).run

theorem State.writeControl_updates (s : State) (v : Word) : Updates d s (s.writeControl v) := by
  unfold State.writeControl
  extract_lets run arbiter
  have hrun : Updates d s { s with host := { s.host with run := run } } := s.setHost_updates
  refine hrun.trans (State.setArbiter_updates { s with host := { s.host with run := run } } ?_)
  simp only [arbiter]
  split
  · exact Arbiter.startPeriod_kept rfl rfl rfl
  · exact ⟨id, fun _ => .inr ⟨rfl, rfl⟩, fun _ => rfl⟩

theorem State.writePollTime_updates (s : State) (v : Word) : Updates d s (s.writePollTime v) := by
  unfold State.writePollTime
  extract_lets period
  split
  · exact s.setArbiter_updates ⟨id, fun h => absurd h (by simp [BeatTimer.running, BeatTimer.stopped]), fun _ => rfl⟩
  · refine s.setArbiter_updates ?_
    split
    · exact Arbiter.startPeriod_kept rfl rfl rfl
    · exact ⟨id, fun _ => .inr ⟨rfl, rfl⟩, fun _ => rfl⟩

theorem State.acknowledge_updates (s : State) (v : Word) : Updates d s (s.acknowledge v) := by
  unfold State.acknowledge
  split
  · exact s.setHost_updates
  · exact s.setHost_updates
  · exact s.setHost_updates
  · exact .nil s

theorem State.hostFault_updates (s : State) (k : FaultKind) : Updates d s (s.hostFault k) := s.setHost_updates

theorem getLsbD_zero_add_two (w : Word) : (w + 2#16).getLsbD 0 = w.getLsbD 0 := by
  simp [BitVec.getLsbD, Nat.testBit_zero, BitVec.toNat_add]

theorem State.advanceWindow_updates (s : State) : Updates d s s.advanceWindow :=
  (Update.host s _ (.inl (getLsbD_zero_add_two _))).run

theorem State.readWindow_updates (s : State) : Updates d s s.readWindow := by
  unfold State.readWindow
  split
  · exact .head (.readData s _) (State.advanceWindow_updates _)
  · exact .head (.readData s 0#16) ((State.hostFault_updates _ _).trans (State.advanceWindow_updates _))

theorem State.storeWindow_updates (s : State) (h : Handle) (v : Word) : Updates d s (s.storeWindow h v) := by
  unfold State.storeWindow
  extract_lets k low
  split
  · exact .head (.writeByte s h k _) (Update.writeByte low h (k + 1) _).run
  · exact (Update.writeByte s h k _).run

theorem State.writeWindow_updates (s : State) (v : Word) : Updates d s (s.writeWindow v) := by
  unfold State.writeWindow
  split
  · exact (s.storeWindow_updates _ v).trans (State.advanceWindow_updates _)
  · exact (s.hostFault_updates _).trans (State.advanceWindow_updates _)

theorem State.writeRate_updates (s : State) (v : Word) : Updates d s (s.writeRate v) := by
  unfold State.writeRate
  extract_lets divisor
  split
  · exact .nil s
  · next h => exact s.setLine_updates { s.line with rate := divisor } { rate := .inr h }

theorem State.writeLineTimes_updates (s : State) (v : Word) : Updates d s (s.writeLineTimes v) := by
  unfold State.writeLineTimes
  extract_lets guardTime gapTime
  refine s.setLine_updates _ { guardTime := ?_, gapTime := ?_ }
  · show (if _ then _ else _) = _ ∨ (if _ then _ else _) ≠ _
    split
    · exact .inl rfl
    · next h => exact .inr h
  · show (if _ then _ else _) = _ ∨ 2 ≤ (if _ then _ else _ : BitVec 4).toNat
    split
    · exact .inl rfl
    · next h => exact .inr (Nat.le_of_not_lt h)

theorem State.writeReplyTime_updates (s : State) (v : Word) : Updates d s (s.writeReplyTime v) := by
  unfold State.writeReplyTime
  refine s.setLine_updates _ { replyTimeout := ?_ }
  show (if _ then _ else _) = _ ∨ 2 ≤ (if _ then _ else _ : Byte).toNat
  split
  · exact .inl rfl
  · next h => exact .inr (Nat.le_of_not_lt h)

theorem State.writeProbeSetup_updates (s : State) (v : Word) : Updates d s (s.writeProbeSetup v) := by
  refine (Update.setup s _ _ s.table.holdBackoff ?_ ?_ (.inl rfl)).run <;> split
  · exact .inl rfl
  · next h => exact .inr h
  · exact .inl rfl
  · next h => exact .inr h

theorem State.writeBackoff_updates (s : State) (v : Word) : Updates d s (s.writeBackoff v) := by
  refine (Update.setup s s.table.probeInterval s.table.probeLimit _ (.inl rfl) (.inl rfl) ?_).run
  split
  · exact .inl rfl
  · next h => exact .inr h

theorem State.setParams_updates (s : State) (v : Vector Word 6) : Updates d s (s.setParams v) :=
  (Update.registers s v s.command.result).run

theorem State.writeOther_updates (s : State) (o : BitVec 5) (v : Word) : Updates d s (s.writeOther o v) := by
  unfold State.writeOther
  split
  · exact s.setParams_updates _
  · exact .nil s

end Sys2Proof.Machine
end

section
set_option Elab.async false
/-! PROOFS. The walk ends: the commands taken through COMMAND, and what every command of the table is, as a run of updates
and the end of a happening. -/

namespace Sys2Proof.Machine

open Sys2Proof.Safety

variable {d : Prop} {s t u : State}

/-! ### Commands on stations -/

theorem State.not_vacant_of_named {e : EntryId} (h : s.namedEntry = .ok e) : (s.entry e).state ≠ .vacant := by
  rcases s.namedEntry_cases with ⟨-, h'⟩ | ⟨-, -, ⟨-, h'⟩ | ⟨g, hg, h'⟩⟩
  · rw [h] at h'; cases h'
  · rw [h] at h'; cases h'
  · rw [h] at h'
    cases h'
    exact (s.entryHolding_some _ e hg).1

theorem State.onStation_named {f : EntryId → Except Reason State} {v : BitVec 6}
    (h : s.onStation f = .ok (u, v)) : ∃ e, (s.entry e).state ≠ .vacant ∧ f e = .ok u := by
  unfold State.onStation at h
  split at h
  · cases h
  · next e he =>
    split at h
    · cases h
    · next hf => cases h; exact ⟨e, State.not_vacant_of_named he, hf⟩

/-- A write of a named entry that keeps its station and its failures in a row. -/
theorem State.namedSetEntry_updates {e : EntryId} (h : (s.entry e).state ≠ .vacant) {E : Entry}
    (hE : SameStation (s.entry e) E) (hc : E.consecFail = (s.entry e).consecFail) : Updates d s (s.setEntry e E) :=
  (Update.entry s e E ⟨hE, .inl hc, .inl (.inl h)⟩).run

theorem attachCommand_updates {v : BitVec 6} (h : attachCommand s = .ok (u, v)) : Updates d s u := by
  unfold attachCommand at h
  split at h
  · cases h
  next hrange =>
  split at h
  · cases h
  next hfit =>
  split at h
  · cases h
  next hheld =>
  split at h
  · cases h
  next i hi =>
  cases h
  have hfit : s.attachLimitsFit = true := by simpa using hfit
  simp only [State.attachLimitsFit, Bool.and_eq_true, decide_eq_true_eq] at hfit
  refine (Update.attach s i _ ((s.lowestVacant_some i).mp hi).1 rfl ⟨_, rfl, by simpa using hrange, by simpa using hheld⟩
    rfl ?_ rfl rfl hfit.2).run
  show (if _ then _ else _) ≠ 0#4
  split
  · decide
  · next hz =>
    have hlim := hfit.1.1
    intro hzero
    apply hz
    apply BitVec.eq_of_toNat_eq
    have hnat := congrArg BitVec.toNat hzero
    simp only [BitVec.toNat_setWidth, BitVec.toNat_ofNat] at hnat ⊢
    omega

theorem detachCommand_updates {v : BitVec 6} (h : detachCommand s = .ok (u, v)) : Updates d s u := by
  obtain ⟨e, -, he⟩ := State.onStation_named h
  unfold State.detach at he
  split at he
  · cases he
  · next hg =>
    cases he
    exact .head (.takeBack s e) (Update.detach _ e (by simpa using hg)).run

theorem pauseCommand_updates {v : BitVec 6} (h : pauseCommand s = .ok (u, v)) : Updates d s u := by
  obtain ⟨e, hv, he⟩ := State.onStation_named h
  cases he
  exact State.namedSetEntry_updates hv {} rfl

theorem resumeCommand_updates {v : BitVec 6} (h : resumeCommand s = .ok (u, v)) : Updates d s u := by
  obtain ⟨e, hv, he⟩ := State.onStation_named h
  cases he
  exact State.namedSetEntry_updates hv {} rfl

theorem reviveCommand_updates {v : BitVec 6} (h : reviveCommand s = .ok (u, v)) : Updates d s u := by
  obtain ⟨e, -, he⟩ := State.onStation_named h
  split at he
  · next hf => cases he; exact (Update.revive s e hf).run
  · cases he

theorem State.markSlot_updates (s : State) (i : SlotId) : Updates d s (s.markSlot i) := by
  unfold State.markSlot
  split
  · next x hx => exact (Update.slot s i x { x with cancelMark := true } hx rfl rfl rfl).run
  · exact .nil s

theorem State.foldl_markSlot_updates (l : List SlotId) (s : State) : Updates d s (l.foldl State.markSlot s) := by
  induction l generalizing s with
  | nil => exact .nil s
  | cons i l ih => exact (s.markSlot_updates i).trans (ih _)

theorem State.flush_updates (s : State) (e : EntryId) : Updates d s (s.flush e) := by
  unfold State.flush
  split
  · exact State.foldl_markSlot_updates _ s
  · exact State.foldl_complete_updates _ (fun _ => (.cancelled, 0#8, 0)) s

theorem flushCommand_updates {v : BitVec 6} (h : flushCommand s = .ok (u, v)) : Updates d s u := by
  obtain ⟨e, -, he⟩ := State.onStation_named h
  cases he
  have hfound : Updates d s (s.beforeFlush e) := by
    unfold State.beforeFlush
    split
    · exact (Update.takeBack s e).run
    · exact .nil s
  exact hfound.trans (State.flush_updates _ e)

theorem stationQueryCommand_updates {v : BitVec 6} (h : stationQueryCommand s = .ok (u, v)) : Updates d s u := by
  unfold stationQueryCommand at h
  split at h
  · cases h
  · cases h; exact s.setParams_updates _

/-! ### Line commands -/

theorem State.lineStation_named {e : EntryId} (h : s.lineStation = .ok e) :
    (s.entry e).state ≠ .failed ∧ (s.entry e).state ≠ .vacant := by
  unfold State.lineStation at h
  split at h
  · cases h
  · next g hg =>
    split at h
    · cases h
    · next hf => cases h; exact ⟨hf, State.not_vacant_of_named hg⟩

theorem State.judgeRecord_usable {b : Byte} {p : RecordState → Bool} {h : Handle} (hj : s.judgeRecord b p = .ok h) :
    p (s.record h).state = true := by
  rcases s.judgeRecord_cases b p with ⟨-, h'⟩ | ⟨g, -, ⟨-, h'⟩ | ⟨-, -, -, h'⟩ | ⟨-, -, hp, h'⟩⟩ <;> rw [hj] at h' <;>
    cases h'
  exact hp

theorem State.takeSlot_updates {x : Slot} {v : BitVec 6} (h : s.takeSlot x = .ok (u, v))
    (hplace : ∀ e, x.place = .station e → (s.entry e).state ≠ .failed ∧ (s.entry e).state ≠ .vacant)
    (hrecord : ∀ g, x.handle = some g → (s.record g).state = .ready) : Updates d s u :=
  (Update.takeSlot s u x v h hplace hrecord).run

theorem State.readyRecordNamed_ready {h : Handle} (hj : s.readyRecordNamed = .ok h) : (s.record h).state = .ready := by
  simpa using State.judgeRecord_usable hj

theorem sendCommand_updates {v : BitVec 6} (h : sendCommand s = .ok (u, v)) : Updates d s u := by
  unfold sendCommand at h
  split at h
  · cases h
  next e he =>
  split at h
  · cases h
  next g hg =>
  refine State.takeSlot_updates h ?_ ?_
  · rintro _ ⟨⟩
    exact State.lineStation_named he
  · rintro _ ⟨⟩
    exact State.readyRecordNamed_ready hg

theorem pollCommand_updates {v : BitVec 6} (h : pollCommand s = .ok (u, v)) : Updates d s u := by
  unfold pollCommand at h
  split at h
  · cases h
  next e he =>
  refine State.takeSlot_updates h ?_ nofun
  rintro _ ⟨⟩
  exact State.lineStation_named he

theorem actionCommand_updates {v : BitVec 6} (h : actionCommand s = .ok (u, v)) : Updates d s u := by
  unfold actionCommand at h
  split at h
  · cases h
  next e he =>
  split at h
  · cases h
  refine State.takeSlot_updates h ?_ nofun
  rintro _ ⟨⟩
  exact State.lineStation_named he

theorem broadcastCommand_updates {v : BitVec 6} (h : broadcastCommand s = .ok (u, v)) : Updates d s u := by
  unfold broadcastCommand at h
  split at h
  · cases h
  next g hg =>
  refine State.takeSlot_updates h nofun ?_
  rintro _ ⟨⟩
  exact State.readyRecordNamed_ready hg

/-! ### Commands on records, on the marks, on the line -/

theorem allocCommand_updates {v : BitVec 6} (h : allocCommand s = .ok (u, v)) : Updates d s u := by
  unfold allocCommand at h
  split at h
  · cases h
  next hl =>
  split at h
  · cases h
  next g hg =>
  split at h
  · cases h
  next hb =>
  cases h
  exact (Update.allocate s g _ ((s.lowestFreeHandle_some g).mp hg).1 (Nat.le_of_not_lt (not_or.mp hl).2)
    (Nat.le_of_not_lt hb)).run

theorem sealCommand_updates {v : BitVec 6} (h : sealCommand s = .ok (u, v)) : Updates d s u := by
  unfold sealCommand at h
  split at h
  · cases h
  next g hg =>
  cases h
  exact (Update.sealed s g (by simpa using State.judgeRecord_usable hg)).run

theorem freeCommand_updates {v : BitVec 6} (h : freeCommand s = .ok (u, v)) : Updates d s u := by
  unfold freeCommand at h
  split at h
  · cases h
  next g hg =>
  cases h
  exact (Update.free s g (by simpa using State.judgeRecord_usable hg)).run

theorem releaseCommand_updates {v : BitVec 6} (h : releaseCommand s = .ok (u, v)) : Updates d s u := by
  unfold releaseCommand at h
  split at h
  · cases h
  next g rest hl =>
  cases h
  exact (Update.release s g rest hl).run

theorem setMarksCommand_updates {v : BitVec 6} (h : setMarksCommand s = .ok (u, v)) : Updates d s u := by
  unfold setMarksCommand at h
  split at h
  · next hm =>
    cases h
    exact (Update.marks s _ _ hm.1 hm.2.1 hm.2.2).run
  · cases h

theorem lineQueryCommand_updates {v : BitVec 6} (h : lineQueryCommand s = .ok (u, v)) : Updates d s u := by
  unfold lineQueryCommand at h
  split at h
  · cases h; exact s.setParams_updates _
  · cases h; exact s.setParams_updates _
  · cases h

theorem clearCountersCommand_updates {v : BitVec 6} (h : clearCountersCommand s = .ok (u, v)) : Updates d s u := by
  cases h
  exact (s.setLine_updates { s.line with stray := 0#16, coding := 0#16, check := 0#16, echo := 0#16 }).tail
    (.clearEntries _)

/-! ### What every command is -/

/-- The states a happening taken in `s` with effect `u` may end in. -/
inductive EndsAs (s u : State) : State → Prop
  | finish : EndsAs s u (s.finish u)
  | finishWait : EndsAs s u (s.finishWait u)
  | finishCommand : EndsAs s u u.finishCommand
  | finishCommandWait : EndsAs s u u.finishCommandWait

/-- Taken while RESET is low, and so without an effect; or with an effect, and ended as a happening. -/
def Taken (effect : State → State → Prop) (s t : State) : Prop :=
  (s.resetHeld = true ∧ t = s) ∨ (s.resetHeld = false ∧ ∃ u, effect s u ∧ EndsAs s u t)

theorem happening_taken (f : State → State) {R : State → State → Prop} (h : happening f s = .next t) (hf : R s (f s)) :
    Taken R s t := by
  rcases happening_cases s f with ⟨hr, e⟩ | ⟨hr, e⟩ <;> rw [e] at h <;> cases h
  · exact .inl ⟨hr, rfl⟩
  · exact .inr ⟨hr, f s, hf, .finish⟩

theorem endOfWait_taken (f : State → State) (h : endOfWait f s = .next t) (hf : Updates d s (f s)) :
    Taken (Updates d) s t := by
  rcases endOfWait_cases s f with ⟨hr, e⟩ | ⟨hr, -, e⟩ | ⟨hr, -, e⟩ <;> rw [e] at h <;> cases h
  · exact .inl ⟨hr, rfl⟩
  · exact .inr ⟨hr, f s, hf, .finishWait⟩
  · exact .inr ⟨hr, f s, hf, .finish⟩

theorem State.accept_updates (s : State) (v : BitVec 6) : Updates d s (s.accept v) :=
  (Update.registers s s.command.params _).run

theorem State.refuse_updates (s : State) (r : Reason) : Updates d s (s.refuse r) :=
  (Update.registers s s.command.params _).run

theorem takeCommand_taken (f : State → Except Reason (State × BitVec 6)) (h : takeCommand f s = .next t)
    (hf : ∀ u v, f s = .ok (u, v) → Updates d s u) : Taken (Updates d) s t := by
  rcases takeCommand_cases s f with ⟨hr, e⟩ | ⟨r, hr, -, e⟩ | ⟨u, v, hr, hok, e⟩ <;> rw [e] at h <;> cases h
  · exact .inl ⟨hr, rfl⟩
  · exact .inr ⟨hr, _, s.refuse_updates r, .finishCommand⟩
  · exact .inr ⟨hr, _, (hf u v hok).trans (u.accept_updates v), .finishCommand⟩

theorem execLineAbort_taken (h : execLineAbort s = .next t) : Taken (Updates d) s t := by
  have habort : Updates d s ((if s.lastClose.isSome then s else s.abortExchange).accept 0#6) := by
    refine Relation.ReflTransGen.trans ?_ (State.accept_updates _ _)
    split
    · exact Updates.nil s
    · exact s.abortExchange_updates
  rcases execLineAbort_cases s with ⟨hr, e⟩ | ⟨hr, -, e⟩ | ⟨hr, -, e⟩ <;> rw [e] at h <;> cases h
  · exact .inl ⟨hr, rfl⟩
  · exact .inr ⟨hr, _, habort, .finishCommandWait⟩
  · exact .inr ⟨hr, _, habort, .finishCommand⟩

/-- Every command's effect is a run of updates, but for CQ_INFO_WRITE, which removes a completion, CONTROLLER_RESET and the
two edges of the RESET pin. -/
theorem exec_taken {c : Instr} (h : exec c s = .next t) :
    Taken (Updates (s.Decodes c)) s t ∨
      (∃ v, c = .cqInfoWrite v ∧ Taken (fun s u => u = s.removeCompletion) s t) ∨
      (c = .controllerReset ∧ Taken (fun s u => u = s.controllerReset.accept 0#6) s t) ∨
      (c = .hardwareReset ∧ (t = s ∨ t = { State.reset with resetHeld := true, pending := s.pending })) ∨
      (c = .resetRelease ∧ t = { s with resetHeld := false }) := by
  cases c with
  | send => exact .inl (takeCommand_taken sendCommand h fun _ _ => sendCommand_updates)
  | poll => exact .inl (takeCommand_taken pollCommand h fun _ _ => pollCommand_updates)
  | action => exact .inl (takeCommand_taken actionCommand h fun _ _ => actionCommand_updates)
  | broadcast => exact .inl (takeCommand_taken broadcastCommand h fun _ _ => broadcastCommand_updates)
  | attach => exact .inl (takeCommand_taken attachCommand h fun _ _ => attachCommand_updates)
  | detach => exact .inl (takeCommand_taken detachCommand h fun _ _ => detachCommand_updates)
  | pause => exact .inl (takeCommand_taken pauseCommand h fun _ _ => pauseCommand_updates)
  | resume => exact .inl (takeCommand_taken resumeCommand h fun _ _ => resumeCommand_updates)
  | revive => exact .inl (takeCommand_taken reviveCommand h fun _ _ => reviveCommand_updates)
  | flush => exact .inl (takeCommand_taken flushCommand h fun _ _ => flushCommand_updates)
  | stationQuery => exact .inl (takeCommand_taken stationQueryCommand h fun _ _ => stationQueryCommand_updates)
  | lineQuery => exact .inl (takeCommand_taken lineQueryCommand h fun _ _ => lineQueryCommand_updates)
  | clearCounters => exact .inl (takeCommand_taken clearCountersCommand h fun _ _ => clearCountersCommand_updates)
  | alloc => exact .inl (takeCommand_taken allocCommand h fun _ _ => allocCommand_updates)
  | sealRecord => exact .inl (takeCommand_taken sealCommand h fun _ _ => sealCommand_updates)
  | free => exact .inl (takeCommand_taken freeCommand h fun _ _ => freeCommand_updates)
  | release => exact .inl (takeCommand_taken releaseCommand h fun _ _ => releaseCommand_updates)
  | setMarks => exact .inl (takeCommand_taken setMarksCommand h fun _ _ => setMarksCommand_updates)
  | lineAbort => exact .inl (execLineAbort_taken h)
  | controllerReset =>
    refine .inr (.inr (.inl ⟨rfl, ?_⟩))
    rcases takeCommand_cases s controllerResetCommand with ⟨hr, e⟩ | ⟨_, _, hok, -⟩ | ⟨u, v, hr, hok, e⟩
    · rw [show exec .controllerReset s = takeCommand controllerResetCommand s from rfl, e] at h
      cases h
      exact .inl ⟨hr, rfl⟩
    · cases hok
    · rw [show exec .controllerReset s = takeCommand controllerResetCommand s from rfl, e] at h
      cases h
      cases hok
      exact .inr ⟨hr, _, rfl, .finishCommand⟩
  | badCodeCommand code =>
    change execBadCodeCommand code s = _ at h
    unfold execBadCodeCommand at h
    split at h
    · cases h
    · exact .inl (takeCommand_taken (fun _ => .error .badCode) h fun _ _ hok => by cases hok)
  | runStart ignored => exact .inl (happening_taken (·.writeControl (ignored ++ 1#1)) h (s.writeControl_updates _))
  | runStop ignored => exact .inl (happening_taken (·.writeControl (ignored ++ 0#1)) h (s.writeControl_updates _))
  | causeEnableWrite value => exact .inl (happening_taken (·.writeCauseEnable value) h s.setHost_updates)
  | causeAck value => exact .inl (happening_taken (·.acknowledge value) h (s.acknowledge_updates value))
  | cqInfoWrite value => exact .inr (.inl ⟨value, rfl, happening_taken State.removeCompletion h rfl⟩)
  | winSelectWrite value =>
    exact .inl (happening_taken (fun t => { t with host := { t.host with winSelect := lowByte value } }) h s.setHost_updates)
  | winOffsetWrite value =>
    exact .inl (happening_taken
      (fun t => { t with host := { t.host with winOffset := value.extractLsb' 1 15 ++ 0#1 } }) h
      (Update.host s _ (.inr (Laws.BusWrite.getLsbD_zero_append _ 0#1))).run)
  | winDataRead => exact .inl (happening_taken State.readWindow h s.readWindow_updates)
  | winDataWrite value => exact .inl (happening_taken (·.writeWindow value) h (s.writeWindow_updates value))
  | rateWrite value => exact .inl (happening_taken (·.writeRate value) h (s.writeRate_updates value))
  | lineTimesWrite value => exact .inl (happening_taken (·.writeLineTimes value) h (s.writeLineTimes_updates value))
  | replyTimeWrite value => exact .inl (happening_taken (·.writeReplyTime value) h (s.writeReplyTime_updates value))
  | pollTimeWrite value => exact .inl (happening_taken (·.writePollTime value) h (s.writePollTime_updates value))
  | probeSetupWrite value => exact .inl (happening_taken (·.writeProbeSetup value) h (s.writeProbeSetup_updates value))
  | backoffWrite value => exact .inl (happening_taken (·.writeBackoff value) h (s.writeBackoff_updates value))
  | coalesceWrite value => exact .inl (happening_taken (·.writeCoalesce value) h (Update.coalesce s value).run)
  | lostSummaryWrite value => exact .inl (happening_taken (·.writeLostSummary value) h (Update.lostSummary s _).run)
  | otherRegisterWrite offset value =>
    change execOtherRegisterWrite offset value s = _ at h
    unfold execOtherRegisterWrite at h
    split at h
    · exact .inl (happening_taken (·.writeOther offset value) h (s.writeOther_updates offset value))
    · cases h
  | hardwareReset =>
    change execHardwareReset s = _ at h
    unfold execHardwareReset at h
    split at h <;> cases h
    · exact .inr (.inr (.inr (.inl ⟨rfl, .inl rfl⟩)))
    · exact .inr (.inr (.inr (.inl ⟨rfl, .inr rfl⟩)))
  | resetRelease =>
    cases h
    exact .inr (.inr (.inr (.inr ⟨rfl, rfl⟩)))
  | characterReceived value parity stop =>
    exact .inl (happening_taken (·.receive value parity stop) h (s.receive_updates value parity stop))
  | inputReturnAfterStopError => exact .inl (happening_taken State.inputReturn h s.inputReturn_updates)
  | transmitCharacter => exact .inl (happening_taken State.transmitNext h s.transmitNext_updates)
  | frameSent => exact .inl (happening_taken State.finishSending h s.finishSending_updates)
  | guardTimerExpiry =>
    exact .inl (happening_taken (fun t => { t with line := { t.line with guardTimer := 0#4 } }) h (s.setLine_updates { s.line with guardTimer := 0#4 }))
  | replyTimerExpiry => exact .inl (endOfWait_taken State.replyTimeUp h s.replyTimeUp_updates)
  | gapTimerExpiry => exact .inl (endOfWait_taken State.gapTimeUp h s.gapTimeUp_updates)
  | echoDeadline => exact .inl (happening_taken State.echoOverdue h s.echoOverdue_updates)
  | drainEnd => exact .inl (happening_taken State.drainOver h s.drainOver_updates)
  | pollPeriodExpiry => exact .inl (happening_taken State.pollPeriodUp h s.pollPeriodUp_updates)
  | backoffExpiry entry => exact .inl (happening_taken (·.backoffUp entry) h (s.backoffUp_updates entry))
  | probeTimerExpiry entry => exact .inl (happening_taken (·.probeTimeUp entry) h (s.probeTimeUp_updates entry))
  | lingerExpiry => exact .inl (happening_taken State.lingerUp h (Update.linger s).run)

end Sys2Proof.Machine
end

section
set_option Elab.async false
/-! PROOFS. What a happening ends with: the grant a choice may make, and the choice and the report of a quiet line case by
case. With it the statements about grants: O14, O12 and O13. -/

namespace Sys2Proof.Machine

open Sys2Proof.Safety

variable {d : Prop} {s t u : State}

/-! ### What the operations leave -/

theorem State.evalMarks_sameButStore (s : State) : SameButStore s s.evalMarks := by
  rw [State.evalMarks_eq, State.setRestraint_eq]
  exact ⟨rfl, rfl, rfl, rfl, rfl, rfl, rfl, rfl, rfl, rfl, rfl, rfl⟩

theorem State.appendBlock_sameButStore (s : State) (h : Handle) (b : Block) : SameButStore s (s.appendBlock h b) :=
  (s.setRecord_sameButStore h _).trans (State.takeBlocks_sameButStore _ 1)

/-- An arrival that begins reaches only the records and the Inbound Path. -/
theorem State.beginArrival_frame (s : State) (source : Byte) :
    s.beginArrival source = { s with
      store := { s.store with descriptors := (s.beginArrival source).store.descriptors }
      inbound := { s.inbound with arrival := (s.beginArrival source).inbound.arrival } } := by
  rcases s.beginArrival_cases source with ⟨h, -, e⟩ | ⟨-, e⟩ <;> rw [e] <;> rfl

/-- What a slot taken leaves: the slot, its record QUEUED, its list longer (R156, R158). -/
theorem State.takeSlot_taken {x : Slot} {v : BitVec 6} (h : s.takeSlot x = .ok (t, v)) :
    ∃ i, s.commitment < 32 ∧ s.lowestFreeSlot = some i ∧ v = BitVec.ofNat 6 i.val ∧
      t = ((s.setSlot i (some x)).queueRecord x.handle x.keep).joinList x.place i := by
  unfold State.takeSlot at h
  split at h
  · cases h
  · next hc =>
    split at h
    · cases h
    · next i hi => cases h; exact ⟨i, Nat.lt_of_not_le hc, hi, rfl, rfl⟩

theorem State.queueRecord_sameButStore (s : State) (h : Option Handle) (k : Bool) :
    SameButStore s (s.queueRecord h k) := by
  cases h with
  | none => exact .refl s
  | some h => exact s.setRecord_sameButStore h _

/-- Joining a list reaches the list. -/
theorem State.joinList_frame (s : State) (p : Place) (i : SlotId) :
    s.joinList p i = { s with
      command := { s.command with broadcastList := (s.joinList p i).command.broadcastList }
      table := { s.table with entries := (s.joinList p i).table.entries } } := by
  cases p <;> rfl

/-! ### The choice -/

/-- A grant the choice may make, by the standing of the station it goes to (R66, R67, R68, R73). -/
inductive GrantedTo (s : State) : ExchangeKind → Place → Option SlotId → Prop
  | probe (i : EntryId) : ProbeDue s i → GrantedTo s .probe (.station i) none
  | station (kind : ExchangeKind) (i : EntryId) (slot : Option SlotId) : kind ≠ .probe →
      (s.entry i).state = .ready → (s.entry i).paused = false → (s.entry i).backoffTimer.beats = 0#8 →
      (kind = .action → slot.isSome = true) → GrantedTo s kind (.station i) slot
  | broadcast (slot : Option SlotId) : GrantedTo s .broadcast .broadcast slot

/-- The arbiter after a grant (R65, R69, R73). -/
inductive TurnTaken (a : Arbiter) : Arbiter → Prop
  | probe : TurnTaken a a
  | command (k : Fin 17) : TurnTaken a (a.afterCommand k)
  | round (i : EntryId) : a.roundInProgress = true → TurnTaken a (a.afterRound i)

theorem TurnTaken.roundInProgress {a b : Arbiter} (h : TurnTaken a b) : b.roundInProgress = a.roundInProgress := by
  cases h <;> rfl

theorem TurnTaken.pollTimer {a b : Arbiter} (h : TurnTaken a b) : b.pollTimer = a.pollTimer := by
  cases h <;> rfl

theorem CommandKind.exchange_ne_probe (k : CommandKind) : k.exchange ≠ .probe := by cases k <;> nofun

/-- A grant of command work at an eligible place. -/
theorem State.grantCommand_granted {k : Fin 17} (hk : s.placeEligible k = true) :
    ∃ kind place slot, GrantedTo s kind place slot ∧
      s.grantCommand k = State.grant { s with arbiter := s.arbiter.afterCommand k } kind place slot := by
  unfold State.placeEligible at hk
  unfold State.grantCommand
  cases hp : placeOfIndex k with
  | station i =>
    rw [hp] at hk
    obtain ⟨hready, hpaused, hback, head, hhead, x, hx, -⟩ := (s.eligible_iff i).mp hk
    obtain ⟨rest, hlist⟩ := List.head?_eq_some_iff.mp hhead
    cases hsync : (s.entry i).syncNeeded with
    | true => exact ⟨_, _, _, .station (.sync .command) i none nofun hready hpaused hback nofun, by simp [hsync]⟩
    | false =>
      exact ⟨_, _, _, .station x.kind.exchange i (some head) x.kind.exchange_ne_probe hready hpaused hback fun _ => rfl,
        by simp [hsync, hlist, Option.mem_def.mp hx]⟩
  | broadcast =>
    rw [hp] at hk
    cases hlist : s.command.broadcastList with
    | nil => simp [hlist] at hk
    | cons head rest => exact ⟨_, _, _, .broadcast (some head), by simp⟩

/-- A grant of round work at a visitable entry. -/
theorem State.grantRound_granted {i : EntryId} (h : s.visitable i = true) :
    ∃ kind place slot, GrantedTo s kind place slot ∧
      s.grantRound i = State.grant { s with arbiter := s.arbiter.afterRound i } kind place slot := by
  obtain ⟨-, hready, hpaused, hback⟩ := (s.visitable_iff i).mp h
  refine ⟨_, _, _, .station _ i none ?_ hready hpaused hback ?_, rfl⟩ <;> split <;> nofun

theorem State.roundPick_visitable {i : EntryId} (h : s.roundPick = some i) :
    s.arbiter.roundInProgress = true ∧ s.visitable i = true := by
  unfold State.roundPick at h
  split at h
  · next hr =>
    simp only [Bool.and_eq_true] at hr
    exact ⟨hr.1, ((s.nextVisit_some i).mp h).1.2⟩
  · cases h

/-- The choice finds no work, or makes one grant. -/
theorem State.makeGrant_granted (s : State) :
    (s.probePick = none ∧ s.commandPick = none ∧ s.roundPick = none ∧ s.makeGrant = s) ∨
      ∃ a kind place slot, TurnTaken s.arbiter a ∧ GrantedTo s kind place slot ∧
        s.makeGrant = State.grant { s with arbiter := a } kind place slot := by
  rcases s.makeGrant_cases with ⟨i, hi, h⟩ | ⟨hp, ⟨k, hk, -, h⟩ | ⟨i, hi, -, h⟩ | ⟨hc, hr, h⟩⟩
  · exact .inr ⟨_, _, _, _, .probe, .probe i ((s.probeDue_iff i).mp ((s.probePick_some i).mp hi).1), h⟩
  · obtain ⟨-, -, helig, -⟩ := (s.commandPick_some k).mp hk
    obtain ⟨kind, place, slot, hg, h'⟩ := State.grantCommand_granted helig
    exact .inr ⟨_, kind, place, slot, .command k, hg, h.trans h'⟩
  · obtain ⟨hin, hvisit⟩ := State.roundPick_visitable hi
    obtain ⟨kind, place, slot, hg, h'⟩ := State.grantRound_granted hvisit
    exact .inr ⟨_, kind, place, slot, .round i hin, hg, h.trans h'⟩
  · exact .inl ⟨hp, hc, hr, h⟩

/-- Who may be served does not depend on the arbiter. -/
theorem GrantedTo.endFinishedRound {kind : ExchangeKind} {place : Place} {slot : Option SlotId}
    (h : GrantedTo s.endFinishedRound kind place slot) : GrantedTo s kind place slot := by
  rw [s.endFinishedRound_frame.1] at h
  cases h with
  | probe i h => exact .probe i h
  | station kind i slot hk hr hp hb hs => exact .station kind i slot hk hr hp hb hs
  | broadcast slot => exact .broadcast slot

/-- The choice changes nothing; or, on a free line with RUN 1, it ends a finished round and finds no work, or makes one
grant. -/
theorem State.callChoice_granted (s : State) :
    ((s.exchange ≠ none ∨ s.host.run = false) ∧ s.callChoice = s) ∨
      (s.exchange = none ∧ s.host.run = true ∧
        ((s.probePick = none ∧ s.commandPick = none ∧ s.roundPick = none ∧ s.callChoice = s.endFinishedRound) ∨
          ∃ a kind place slot, TurnTaken s.endFinishedRound.arbiter a ∧ GrantedTo s kind place slot ∧
            s.callChoice = State.grant { s with arbiter := a } kind place slot)) := by
  rcases s.callChoice_cases with ⟨hx, hrun, h⟩ | ⟨hno, h⟩
  · refine .inr ⟨hx, hrun, ?_⟩
    rcases s.endFinishedRound.makeGrant_granted with ⟨hp, hc, hr, hg⟩ | ⟨a, kind, place, slot, ha, hto, hg⟩
    · rw [s.roundPick_endFinishedRound] at hr
      have hcommand : s.commandPick = none := by
        rw [State.commandPick_none] at hc ⊢
        intro k
        have := hc k
        rwa [s.endFinishedRound_frame.1] at this
      have hprobe : s.probePick = none := by
        rwa [s.endFinishedRound_frame.1] at hp
      exact .inl ⟨hprobe, hcommand, hr, h.trans hg⟩
    · refine .inr ⟨a, kind, place, slot, ha, hto.endFinishedRound, h.trans (hg.trans ?_)⟩
      rw [s.endFinishedRound_frame.1]
  · exact .inl ⟨hno, h⟩

/-! ### What the endings leave -/

/-- The choice reaches only the arbiter, the exchange and the records. -/
theorem State.callChoice_frame (s : State) :
    s.callChoice = { s with
      arbiter := s.callChoice.arbiter
      exchange := s.callChoice.exchange
      store := { s.store with descriptors := s.callChoice.store.descriptors } } := by
  rcases s.callChoice_granted with ⟨-, h⟩ | ⟨-, -, ⟨-, -, -, h⟩ | ⟨a, kind, place, slot, -, -, h⟩⟩
  · rw [h]
  · rw [h, s.endFinishedRound_frame.1]
  · rw [h, State.grant_frame { s with arbiter := a }]

/-- The answer is a REFUSE counted and a frame handed over. -/
theorem State.countRefusal_frame (s : State) (p : Place) (v : Verdict) :
    s.countRefusal p v = { s with table := { s.table with entries := (s.countRefusal p v).table.entries } } := by
  unfold State.countRefusal
  split
  · split <;> rfl
  · rfl

/-- The report of a quiet line leaves the exchange where it leaves one. -/
theorem State.reportQuiet_frame (s : State) :
    s.reportQuiet = { s with
      command := { s.command with slots := s.reportQuiet.command.slots }
      table := { s.table with entries := s.reportQuiet.table.entries }
      exchange := s.reportQuiet.exchange
      line := { s.line with
        tx := s.reportQuiet.line.tx, echoList := s.reportQuiet.line.echoList, rx := s.reportQuiet.line.rx } } := by
  rcases s.reportQuiet_cases with ⟨x, -, -, -, h⟩ | ⟨x, -, -, -, h⟩ | ⟨-, h⟩ <;> rw [h]
  · rw [s.enterTransmit_eq x, s.countAttempt_frame]
  · unfold State.enterAnswer
    split
    · rw [s.countRefusal_frame]
      rfl
    · rfl

theorem State.settle_host (s : State) : s.settle.host = s.host := by
  rw [State.settle, State.reportQuiet_frame, State.callChoice_frame]

theorem State.callChoice_host (s : State) : s.callChoice.host = s.host := by
  rw [State.callChoice_frame]

/-- Every field but the model's note of a close is what the choice leaves, or what settling leaves. -/
theorem EndsAs.cases (h : EndsAs s u t) :
    ∃ k, t = { u.settle with lastClose := k } ∨ t = { u.callChoice with lastClose := k } := by
  cases h
  · exact ⟨_, .inl rfl⟩
  · exact ⟨_, .inr rfl⟩
  · exact ⟨_, .inl rfl⟩
  · exact ⟨_, .inr rfl⟩

/-! ### No work is left waiting: O14 -/

theorem State.callChoice_noWorkWaits (s : State) : NoWorkWaits s.callChoice := by
  intro hx hrun
  rcases s.callChoice_granted with ⟨hno, h⟩ | ⟨-, -, ⟨hp, hc, hr, h⟩ | ⟨a, kind, place, slot, -, -, h⟩⟩
  · rw [h] at hx hrun
    rcases hno with hno | hno
    · exact absurd hx hno
    · rw [hno] at hrun; cases hrun
  · rw [h, s.roundPick_endFinishedRound]
    refine ⟨?_, ?_, hr⟩
    · rw [s.endFinishedRound_frame.1]; exact hp
    · rw [State.commandPick_none] at hc ⊢
      rw [s.endFinishedRound_frame.1]
      exact hc
  · rw [h, State.grant_exchange] at hx
    cases hx

theorem State.reportQuiet_noWorkWaits (h : NoWorkWaits s) : NoWorkWaits s.reportQuiet := by
  rcases s.reportQuiet_cases with ⟨x, -, -, -, e⟩ | ⟨x, -, hx, -, e⟩ | ⟨-, e⟩ <;> rw [e]
  · intro hnone
    rw [s.enterTransmit_eq x] at hnone
    cases hnone
  · cases hdec : x.decision with
    | none => simpa [State.enterAnswer, hdec] using h
    | some d => intro hnone; simp [State.enterAnswer, hdec] at hnone
  · exact h

theorem State.settle_noWorkWaits (s : State) : NoWorkWaits s.settle :=
  State.reportQuiet_noWorkWaits s.callChoice_noWorkWaits

/-- However a happening ends, it leaves no work waiting. -/
theorem EndsAs.noWorkWaits (h : EndsAs s u t) : NoWorkWaits t := by
  cases h
  · exact u.settle_noWorkWaits
  · exact u.callChoice_noWorkWaits
  · exact u.settle_noWorkWaits
  · exact u.callChoice_noWorkWaits

theorem Taken.noWorkWaits {R : State → State → Prop} (hs : NoWorkWaits s) (h : Taken R s t) : NoWorkWaits t := by
  rcases h with ⟨-, rfl⟩ | ⟨-, u, -, he⟩
  · exact hs
  · exact he.noWorkWaits

/-- A beat timer is stopped after a character time exactly when it was stopped before. -/
theorem BeatTimer.tick_beats (b : BeatTimer) : b.tick.beats = 0#8 ↔ b.beats = 0#8 := by
  unfold BeatTimer.tick
  split
  · exact Iff.rfl
  split
  · exact Iff.rfl
  split
  · exact Iff.rfl
  · next h0 _ h1 =>
    refine ⟨fun h => ?_, fun h => absurd h h0⟩
    exact absurd (BitVec.sub_eq_iff_eq_add.mp h) (by simpa using h1)

/-- A character time leaves each entry but for its two timers. -/
theorem State.tick_entry (h : s.resetHeld = false) (i : EntryId) :
    s.tick.entry i = { s.entry i with
      backoffTimer := (s.entry i).backoffTimer.tick, probeTimer := (s.entry i).probeTimer.tick } := by
  simp [State.tick, h, State.entry]

theorem State.tick_probeDue (h : s.resetHeld = false) (i : EntryId) : ProbeDue s.tick i ↔ ProbeDue s i := by
  simp only [ProbeDue, State.tick_entry h, BeatTimer.tick_beats]

theorem State.tick_visitable (h : s.resetHeld = false) (i : EntryId) : Visitable s.tick i ↔ Visitable s i := by
  simp only [Visitable, State.tick_entry h, BeatTimer.tick_beats]

theorem State.tick_frame (h : s.resetHeld = false) :
    s.tick.exchange = s.exchange ∧ s.tick.host = s.host ∧ s.tick.command = s.command ∧ s.tick.store = s.store ∧
      s.tick.arbiter = { s.arbiter with pollTimer := s.arbiter.pollTimer.tick } := by
  simp [State.tick, h]

theorem State.tick_eligible (h : s.resetHeld = false) (i : EntryId) : Eligible s.tick i ↔ Eligible s i := by
  obtain ⟨-, -, hcommand, hstore, -⟩ := State.tick_frame h
  simp only [Eligible, Startable, State.slot, State.tick_entry h, BeatTimer.tick_beats, hcommand, hstore]

theorem State.tick_placeReady (h : s.resetHeld = false) (k : Fin 17) : PlaceReady s.tick k ↔ PlaceReady s k := by
  obtain ⟨-, -, hcommand, -⟩ := State.tick_frame h
  simp only [PlaceReady, State.tick_eligible h, hcommand]

theorem State.tick_roundReady (h : s.resetHeld = false) : RoundReady s.tick ↔ RoundReady s := by
  obtain ⟨-, -, -, hstore, harbiter⟩ := State.tick_frame h
  simp only [RoundReady, State.tick_visitable h, hstore, harbiter]

/-- No work waits, in the terms of the statements. -/
theorem State.noWork_iff (s : State) :
    (s.probePick = none ∧ s.commandPick = none ∧ s.roundPick = none) ↔
      (∀ i, ¬ ProbeDue s i) ∧ (∀ k, ¬ PlaceReady s k) ∧ ¬ RoundReady s := by
  simp only [s.probePick_none, s.commandPick_none, s.roundPick_none_iff, eq_false_iff_not (s.probeDue_iff _),
    eq_false_iff_not (s.placeEligible_iff _)]

/-- Time makes no work ready (assumption 1). -/
theorem State.tick_noWorkWaits (h : NoWorkWaits s) : NoWorkWaits s.tick := by
  cases hr : s.resetHeld with
  | true => rw [show s.tick = s by simp [State.tick, hr]]; exact h
  | false =>
    obtain ⟨hx, hhost, -⟩ := State.tick_frame hr
    intro htx htr
    rw [State.noWork_iff]
    simp only [State.tick_probeDue hr, State.tick_placeReady hr, State.tick_roundReady hr]
    exact s.noWork_iff.mp (h (hx ▸ htx) (hhost ▸ htr))

/-- Every command leaves no work waiting where none waited. -/
theorem exec_noWorkWaits {c : Instr} (hs : NoWorkWaits s) (h : exec c s = .next t) : NoWorkWaits t := by
  rcases exec_taken h with h | ⟨_, -, h⟩ | ⟨-, h⟩ | ⟨-, rfl | rfl⟩ | ⟨-, rfl⟩
  · exact h.noWorkWaits hs
  · exact h.noWorkWaits hs
  · exact h.noWorkWaits hs
  · exact hs
  · intro _ hrun
    cases hrun
  · exact hs

/-- A step is a command taken from the queue, the report of a quiet line, or a character time. -/
theorem step_cases (h : step s = .next t) :
    (∃ c rest, s.pending = c :: rest ∧ exec c { s with pending := rest } = .next t) ∨
      (s.pending = [] ∧ s.reportDue = true ∧ t = s.finishCommand) ∨
      (s.pending = [] ∧ s.reportDue = false ∧ t = s.tick) := by
  unfold step at h
  split at h
  · next hp =>
    cases hd : s.reportDue <;> rw [hd] at h <;> cases h
    · exact .inr (.inr ⟨hp, rfl, rfl⟩)
    · exact .inr (.inl ⟨hp, rfl, rfl⟩)
  · next c rest hp => exact .inl ⟨c, rest, hp, h⟩

/-- Settles O14: what every happening ends with leaves no work waiting, and time makes none ready. -/
theorem noWorkIsLeftWaiting : Obligations.NoWorkIsLeftWaiting := by
  intro s t hs h
  rcases step_cases h with ⟨c, rest, -, h⟩ | ⟨-, -, rfl⟩ | ⟨-, -, rfl⟩
  · exact exec_noWorkWaits (s := { s with pending := rest }) hs h
  · exact (EndsAs.finishCommand (s := s)).noWorkWaits
  · exact State.tick_noWorkWaits hs

/-! ### Who may be granted: O12 and O13 -/

/-- Setting the exchange is the last of an update, or no part of it: none begins one. -/
theorem Update.exchange_none (h : Update d s t) (hs : s.exchange = none) : t.exchange = none := by
  cases h with
  | exchange x y hx => rw [hs] at hx; cases hx
  | complete i o b n g => exact (s.complete_same i o b n g).exchange.trans hs
  | beginArrival source => rw [s.beginArrival_frame]; exact hs
  | appendBlock h b => exact (s.appendBlock_sameButStore h b).exchange.trans hs
  | writeByte h k v => exact (s.writeRecordByte_sameButStore h k v).exchange.trans hs
  | discard => exact s.discardArrival_exchange.trans hs
  | takeSlot _ x v hok =>
    obtain ⟨i, -, -, -, rfl⟩ := State.takeSlot_taken hok
    rw [State.joinList_frame]
    exact (State.queueRecord_sameButStore _ _ _).exchange.trans hs
  | detach e => exact (s.completeAll_same e (s.detachOutcome e)).exchange.trans hs
  | takeBack e =>
    rcases s.takeBack_cases e with ⟨c, x, hg, -⟩ | ⟨-, h⟩
    · exact absurd (hs.symm.trans hg.2.1) nofun
    · rw [h, hs]
  | allocate h n => exact (s.allocate_sameButStore h n).exchange.trans hs
  | free h => exact (s.freeRecord_sameButStore h).exchange.trans hs
  | release h rest => exact (State.freeRecord_sameButStore _ h).exchange.trans hs
  | marks low high => exact (State.evalMarks_sameButStore _).exchange.trans hs
  | linger =>
    unfold State.lingerUp
    split <;> exact hs
  | _ => first | exact hs | rfl

theorem Updates.exchange_none (h : Updates d s t) (hs : s.exchange = none) : t.exchange = none := by
  induction h with
  | refl => exact hs
  | tail _ h ih => exact h.exchange_none ih

theorem State.removeCompletion_exchange (s : State) : s.removeCompletion.exchange = s.exchange := by
  unfold State.removeCompletion
  split <;> rfl

/-- The exchange as a happening's effect leaves it, where the happening found none: none (R64). -/
theorem exec_effect {c : Instr} (h : exec c s = .next t) (hs : s.exchange = none) :
    t.exchange = none ∨ ∃ u, u.exchange = none ∧ EndsAs s u t := by
  rcases exec_taken h with (⟨-, rfl⟩ | ⟨-, u, hu, he⟩) | ⟨_, -, (⟨-, rfl⟩ | ⟨-, u, rfl, he⟩)⟩ |
    ⟨-, (⟨-, rfl⟩ | ⟨-, u, rfl, he⟩)⟩ | ⟨-, (rfl | rfl)⟩ | ⟨-, rfl⟩
  · exact .inl hs
  · exact .inr ⟨u, hu.exchange_none hs, he⟩
  · exact .inl hs
  · exact .inr ⟨_, s.removeCompletion_exchange.trans hs, he⟩
  · exact .inl hs
  · exact .inr ⟨_, rfl, he⟩
  · exact .inl hs
  · exact .inl rfl
  · exact .inl hs

/-- With RUN 0 a happening that leaves a free line ends with nothing (R64). -/
theorem EndsAs.exchange_of_stopped (h : EndsAs s u t) (hu : u.exchange = none) (hrun : t.host.run = false) :
    t.exchange = none := by
  obtain ⟨k, rfl | rfl⟩ := h.cases
  · rw [show u.settle.host = u.host from u.settle_host] at hrun
    exact (congrArg State.exchange (u.settle_of_stopped hu hrun)).trans hu
  · rw [show u.callChoice.host = u.host from u.callChoice_host] at hrun
    exact (congrArg State.exchange (State.callChoice_of_stopped u hrun)).trans hu

/-- Settles O12: no effect begins an exchange, and with RUN 0 no choice is made. -/
theorem nothingIsGrantedWhileStopped : Obligations.NothingIsGrantedWhileStopped := by
  intro c s t h hs hrun
  rcases exec_effect h hs with ht | ⟨u, hu, he⟩
  · exact ht
  · exact he.exchange_of_stopped hu hrun

/-- The exchange a choice begins is one that may be granted. -/
theorem State.callChoice_exchange (hs : s.exchange = none) {x : Exchange} (hx : s.callChoice.exchange = some x) :
    GrantedTo s x.kind x.place x.slot ∧ x.phase = .guard := by
  rcases s.callChoice_granted with ⟨-, h⟩ | ⟨-, -, ⟨-, -, -, h⟩ | ⟨a, kind, place, slot, -, hg, h⟩⟩
  · rw [h, hs] at hx
    cases hx
  · rw [h, s.endFinishedRound_frame.1, hs] at hx
    cases hx
  · rw [h, State.grant_exchange] at hx
    cases hx
    exact ⟨hg, rfl⟩

theorem State.callChoice_table (s : State) : s.callChoice.table = s.table := by rw [State.callChoice_frame]

/-- The report of a quiet line keeps the place, kind and slot of an exchange in GUARD, and the Station Table. -/
theorem State.reportQuiet_guard {x y : Exchange} (hx : s.exchange = some x) (hp : x.phase = .guard)
    (hy : s.reportQuiet.exchange = some y) :
    y.kind = x.kind ∧ y.place = x.place ∧ y.slot = x.slot ∧ s.reportQuiet.table = s.table := by
  rcases s.reportQuiet_cases with ⟨z, -, hz, -, e⟩ | ⟨z, -, hz, hp', -⟩ | ⟨-, e⟩
  · rw [hx] at hz
    cases hz
    rw [e, s.enterTransmit_eq x] at hy
    cases hy
    exact ⟨rfl, rfl, rfl, by rw [e, s.enterTransmit_eq x]⟩
  · rw [hx] at hz
    cases hz
    rw [hp] at hp'
    cases hp'
  · rw [e, hx] at hy
    cases hy
    exact ⟨rfl, rfl, rfl, by rw [e]⟩

/-- An exchange that stands once a happening with a free line has ended is one that may be granted, and the Station
Table is the effect's. -/
theorem EndsAs.granted (h : EndsAs s u t) (hu : u.exchange = none) {x : Exchange} (hx : t.exchange = some x) :
    GrantedTo u x.kind x.place x.slot ∧ t.table = u.table := by
  obtain ⟨k, rfl | rfl⟩ := h.cases
  · change u.callChoice.reportQuiet.exchange = some x at hx
    cases hc : u.callChoice.exchange with
    | none =>
      have hnone : u.callChoice.reportQuiet = u.callChoice := by simp [State.reportQuiet, hc]
      rw [hnone, hc] at hx
      cases hx
    | some y =>
      obtain ⟨hg, hp⟩ := State.callChoice_exchange hu hc
      obtain ⟨hk, hpl, hs, ht⟩ := State.reportQuiet_guard hc hp hx
      rw [hk, hpl, hs]
      exact ⟨hg, ht.trans u.callChoice_table⟩
  · exact ⟨(State.callChoice_exchange hu hx).1, u.callChoice_table⟩

/-- Settles O13: an exchange that begins is the choice's, and the choice grants to such a station alone. -/
theorem grantsGoToStationsThatMayHaveThem : Obligations.GrantsGoToStationsThatMayHaveThem := by
  intro c s t h hs x hx i hi
  rcases exec_effect h hs with ht | ⟨u, hu, he⟩
  · rw [ht] at hx; cases hx
  · obtain ⟨hg, htable⟩ := he.granted hu hx
    have hentry : t.entry i = u.entry i := by rw [State.entry, State.entry, htable]
    rw [hi] at hg
    generalize x.kind = kind, x.slot = slot at hg
    cases hg with
    | probe _ hdue => exact .inl ⟨rfl, by rw [ProbeDue, hentry]; exact hdue⟩
    | station _ _ _ hk hr hp hb _ => rw [hentry]; exact .inr ⟨hk, hr, hp, hb⟩

end Sys2Proof.Machine
end

section
set_option Elab.async false
/-! PROOFS. An invariant of the steps is one that every update, every end of a happening and the passing of time keep. The
invariants about setup values and rounds (O54), marks and bytes (O55) and completions (O56, O18). -/

namespace Sys2Proof.Machine

open Sys2Proof.Safety

variable {d : Prop} {s t u : State}

/-! ### Invariants of the steps -/

/-- What keeps a property through every step. -/
structure Kept (P : State → Prop) : Prop where
  pending : ∀ (s : State) (q : List Instr), P s → P { s with pending := q }
  update : ∀ (d : Prop) (s t : State), Update d s t → P s → P t
  remove : ∀ s : State, P s → P s.removeCompletion
  ends : ∀ s u t : State, EndsAs s u t → P u → P t
  tick : ∀ s : State, P s → P s.tick
  controllerReset : ∀ s : State, P s → P { s.controllerReset.accept 0#6 with lastClose := none }
  hardwareReset : ∀ q : List Instr, P { State.reset with resetHeld := true, pending := q }
  resetRelease : ∀ s : State, P s → P { s with resetHeld := false }

variable {P : State → Prop}

theorem Kept.updates (h : Kept P) (hu : Updates d s t) (hs : P s) : P t := by
  induction hu with
  | refl => exact hs
  | tail _ hup ih => exact h.update d _ _ hup ih

theorem Kept.exec (h : Kept P) {c : Instr} (he : exec c s = .next t) (hs : P s) : P t := by
  rcases exec_taken he with (⟨-, rfl⟩ | ⟨-, u, hu, hends⟩) | ⟨_, -, (⟨-, rfl⟩ | ⟨-, u, rfl, hends⟩)⟩ | ⟨rfl, ht⟩ |
    ⟨-, (rfl | rfl)⟩ | ⟨-, rfl⟩
  · exact hs
  · exact h.ends _ _ _ hends (h.updates hu hs)
  · exact hs
  · exact h.ends _ _ _ hends (h.remove s hs)
  · rcases ht with ⟨-, rfl⟩ | ⟨hheld, -⟩
    · exact hs
    · rw [exec_controllerReset s hheld] at he
      cases he
      exact h.controllerReset s hs
  · exact hs
  · exact h.hardwareReset _
  · exact h.resetRelease s hs

/-- A property kept in all these is an invariant of every step. -/
theorem Kept.step (h : Kept P) (he : step s = .next t) (hs : P s) : P t := by
  rcases step_cases he with ⟨c, rest, -, hc⟩ | ⟨-, -, rfl⟩ | ⟨-, -, rfl⟩
  · exact h.exec hc (h.pending s rest hs)
  · exact h.ends s s _ .finishCommand hs
  · exact h.tick s hs

/-- What the choice, the report of a quiet line and the model's note of a close keep, the end of a happening keeps. -/
theorem EndsAs.keeps (hchoice : ∀ s : State, P s → P s.callChoice) (hquiet : ∀ s : State, P s → P s.reportQuiet)
    (hnote : ∀ (s : State) (k : Option Close), P s → P { s with lastClose := k }) (h : EndsAs s u t) (hu : P u) :
    P t := by
  obtain ⟨k, rfl | rfl⟩ := h.cases
  · exact hnote _ k (hquiet _ (hchoice u hu))
  · exact hnote _ k (hchoice u hu)

/-! ### Setup values and rounds: O54 -/

/-- The setup values, the window offset, the arbiter and the note of a close are as they were. -/
structure SameSetup (s t : State) : Prop where
  rate : t.line.rate = s.line.rate := by rfl
  guardTime : t.line.guardTime = s.line.guardTime := by rfl
  gapTime : t.line.gapTime = s.line.gapTime := by rfl
  replyTimeout : t.line.replyTimeout = s.line.replyTimeout := by rfl
  probeInterval : t.table.probeInterval = s.table.probeInterval := by rfl
  probeLimit : t.table.probeLimit = s.table.probeLimit := by rfl
  holdBackoff : t.table.holdBackoff = s.table.holdBackoff := by rfl
  winOffset : t.host.winOffset = s.host.winOffset := by rfl
  arbiter : t.arbiter = s.arbiter := by rfl
  lastClose : t.lastClose = s.lastClose := by rfl

theorem SameButCompletions.sameSetup (h : SameButCompletions s t) : SameSetup s t where
  rate := by rw [h.line]
  guardTime := by rw [h.line]
  gapTime := by rw [h.line]
  replyTimeout := by rw [h.line]
  probeInterval := h.probeInterval
  probeLimit := h.probeLimit
  holdBackoff := h.holdBackoff
  winOffset := by rw [h.host]
  arbiter := h.arbiter
  lastClose := h.lastClose

theorem SameButStore.sameSetup (h : SameButStore s t) : SameSetup s t := h.completions.sameSetup

/-- A round and the poll period timer exclude one another (R74, R75). -/
def Arbiter.Sound (a : Arbiter) : Prop :=
  (a.pollTimer.running = true → a.roundInProgress = false) ∧ (a.roundInProgress = false → a.roundPosition = 0)

/-- O54's invariant. -/
def SetupSound (s : State) : Prop := SetupInRange s ∧ s.arbiter.Sound ∧ TurnKeptSound s

theorem SetupSound.of_same (h : SetupSound s) (hst : SameSetup s t) : SetupSound t := by
  obtain ⟨hset, harb, hturn⟩ := h
  refine ⟨?_, by rw [hst.arbiter]; exact harb, ?_⟩
  · rw [SetupInRange, hst.rate, hst.guardTime, hst.gapTime, hst.replyTimeout, hst.probeInterval, hst.probeLimit,
      hst.holdBackoff, hst.winOffset]
    exact hset
  · rw [TurnKeptSound, hst.arbiter, hst.lastClose]
    exact hturn

/-- A value as it was or in its range is in its range where it was. -/
theorem inRange_of_kept {α : Type} {p : α → Prop} {a b : α} (h : b = a ∨ p b) (ha : p a) : p b := by
  rcases h with rfl | h
  · exact ha
  · exact h

theorem ne_of_kept {α : Type} {z a b : α} (h : b = a ∨ b ≠ z) (ha : a ≠ z) : b ≠ z :=
  inRange_of_kept (p := (· ≠ z)) h ha

theorem State.closePending_sameSetup (s : State) (x : Exchange) : SameSetup s (s.closePending x) :=
  { (s.requeueRecord_sameButStore x.slot).sameSetup with }

theorem ArbiterKept.sound {a b : Arbiter} (h : ArbiterKept a b) (ha : a.Sound) : b.Sound := by
  refine ⟨fun hrun => ?_, fun hin => ?_⟩
  · rcases h.timer hrun with hin | ⟨hin, htimer⟩
    · exact hin
    · rw [hin]; exact ha.1 (htimer ▸ hrun)
  · refine (h.position hin).trans (ha.2 ?_)
    by_contra hne
    rw [h.inProgress (by simpa using hne)] at hin
    cases hin

theorem SetupSound.takeBack (h : SetupSound s) (e : EntryId) : SetupSound (s.takeBack e) := by
  rcases s.takeBack_cases e with ⟨c, x, ⟨hc, -⟩, ht⟩ | ⟨-, ht⟩ <;> rw [ht]
  · have hclosed : SetupSound (s.closePending x) := h.of_same (s.closePending_sameSetup x)
    refine ⟨hclosed.1, ⟨h.2.1.1, fun hin => ?_⟩, ?_⟩
    · exact h.2.2 c hc hin
    · intro c' hc' hin
      exact hclosed.2.2 c' hc' (by rw [(s.closePending_sameSetup x).arbiter]; exact hin)
  · exact h

theorem SetupSound.update (h : Update d s t) (hs : SetupSound s) : SetupSound t := by
  cases h with
  | line l hset =>
    obtain ⟨⟨hr, hg, hp, ht, hrest⟩, harb, hturn⟩ := hs
    exact ⟨⟨ne_of_kept hset.rate hr, ne_of_kept hset.guardTime hg,
      inRange_of_kept (p := fun v : BitVec 4 => 2 ≤ v.toNat) hset.gapTime hp,
      inRange_of_kept (p := fun v : Byte => 2 ≤ v.toNat) hset.replyTimeout ht, hrest⟩, harb, hturn⟩
  | setup interval limit backoff hi hl hb =>
    obtain ⟨⟨h1, h2, h3, h4, h5, h6, h7, h8⟩, harb, hturn⟩ := hs
    exact ⟨⟨h1, h2, h3, h4, ne_of_kept hi h5, ne_of_kept hl h6, ne_of_kept hb h7, h8⟩, harb, hturn⟩
  | host w hw =>
    obtain ⟨⟨h1, h2, h3, h4, h5, h6, h7, h8⟩, harb, hturn⟩ := hs
    refine ⟨⟨h1, h2, h3, h4, h5, h6, h7, ?_⟩, harb, hturn⟩
    rcases hw with hw | hw
    · exact hw.trans h8
    · exact hw
  | arbiter a ha =>
    refine ⟨hs.1, ha.sound hs.2.1, fun c hc hin => hs.2.2 c hc ?_⟩
    by_contra hne
    rw [ha.inProgress (by simpa using hne)] at hin
    cases hin
  | takeBack e => exact hs.takeBack e
  | complete i o b n g => exact hs.of_same (s.complete_same i o b n g).sameSetup
  | lose e E b x =>
    exact hs.of_same { ((s.setEntry e E).completeAll_same e ((s.setEntry e E).lossOutcome e b)).sameSetup with }
  | beginArrival source => rw [s.beginArrival_frame]; exact hs.of_same {}
  | appendBlock h b => exact hs.of_same (s.appendBlock_sameButStore h b).sameSetup
  | writeByte h k v => exact hs.of_same (s.writeRecordByte_sameButStore h k v).sameSetup
  | discard => 
    rcases s.discardArrival_cases with ⟨-, e⟩ | ⟨a, -, -, e⟩ | ⟨a, h, -, -, e⟩ <;> rw [e]
    · exact hs
    · exact hs.of_same {}
    · exact (hs.of_same (s.freeRecord_sameButStore h).sameSetup).of_same {}
  | takeSlot _ x v hok =>
    obtain ⟨i, -, -, -, rfl⟩ := State.takeSlot_taken hok
    rw [State.joinList_frame]
    have hq := (State.queueRecord_sameButStore (s.setSlot i (some x)) x.handle x.keep).sameSetup
    exact ((hs.of_same (t := s.setSlot i (some x)) {}).of_same hq).of_same {}
  | detach e => exact (hs.of_same (s.completeAll_same e (s.detachOutcome e)).sameSetup).of_same {}
  | allocate h n => exact hs.of_same (s.allocate_sameButStore h n).sameSetup
  | free h => exact hs.of_same (s.freeRecord_sameButStore h).sameSetup
  | release h rest =>
    exact (hs.of_same (t := { s with inbound := { s.inbound with list := rest } }) {}).of_same
      (State.freeRecord_sameButStore _ h).sameSetup
  | marks low high =>
    exact (hs.of_same (t := { s with store := { s.store with low := low, high := high } }) {}).of_same
      (State.evalMarks_sameButStore _).sameSetup
  | linger =>
    unfold State.lingerUp
    split
    · exact hs
    · exact hs.of_same {}
  | _ => exact hs.of_same {}

theorem Arbiter.endRound_sound (a : Arbiter) : a.endRound.Sound := ⟨fun _ => rfl, fun _ => rfl⟩

theorem State.endFinishedRound_sound (hs : s.arbiter.Sound) : s.endFinishedRound.arbiter.Sound := by
  unfold State.endFinishedRound
  split
  · exact s.arbiter.endRound_sound
  · exact hs

theorem TurnTaken.sound {a b : Arbiter} (h : TurnTaken a b) (ha : a.Sound) : b.Sound := by
  cases h with
  | probe => exact ha
  | command k => exact ha
  | round i hin => exact ⟨ha.1, fun hno => absurd (hin.symm.trans hno) nofun⟩

/-- The arbiter once a choice has been called: as it was, or a finished round ended and a turn taken. -/
theorem State.callChoice_arbiter (s : State) :
    (s.callChoice = s) ∨ s.callChoice.arbiter = s.endFinishedRound.arbiter ∨
      TurnTaken s.endFinishedRound.arbiter s.callChoice.arbiter := by
  rcases s.callChoice_granted with ⟨-, h⟩ | ⟨-, -, ⟨-, -, -, h⟩ | ⟨a, kind, place, slot, ha, -, h⟩⟩
  · exact .inl h
  · exact .inr (.inl (by rw [h]))
  · exact .inr (.inr (by rw [h, State.grant_arbiter]; exact ha))

theorem State.callChoice_sound (hs : s.arbiter.Sound) : s.callChoice.arbiter.Sound := by
  rcases s.callChoice_arbiter with h | h | h
  · rw [h]; exact hs
  · rw [h]; exact State.endFinishedRound_sound hs
  · exact h.sound (State.endFinishedRound_sound hs)

/-- The choice leaves the setup values, and settling too. -/
theorem State.callChoice_setup (h : SetupInRange s) : SetupInRange s.callChoice := by
  rw [State.callChoice_frame]
  exact h

theorem State.reportQuiet_setup (h : SetupInRange s) : SetupInRange s.reportQuiet := by
  rw [State.reportQuiet_frame]
  exact h

theorem State.settle_arbiter (s : State) : s.settle.arbiter = s.callChoice.arbiter := by
  rw [State.settle, State.reportQuiet_frame]

/-- The turn noted of a close has position 0 while no round is in progress: it is the one before the choice, a finished
round having ended. -/
theorem closeOf_turn {w : State} (hu : u.arbiter.Sound) (hw : w.exchange ≠ none → u.callChoice.exchange ≠ none)
    (harb : w.arbiter = u.callChoice.arbiter) :
    ∀ c ∈ closeOf s u w, w.arbiter.roundInProgress = false → c.turn.roundPosition = 0 := by
  intro c hc hin
  rcases closeOf_cases s u w with ⟨x, -, hx, hwx, hclose⟩ | ⟨-, hclose⟩ <;> rw [hclose] at hc <;> cases hc
  refine (State.endFinishedRound_sound hu).2 ?_
  rw [harb] at hin
  rcases u.callChoice_arbiter with h | h | h
  · exact absurd hx (h ▸ hw hwx)
  · rw [← h]; exact hin
  · rw [← h.roundInProgress]; exact hin

theorem State.settle_exchange_none (h : s.callChoice.exchange = none) : s.settle.exchange = none := by
  have : s.settle = s.callChoice := by simp [State.settle, State.reportQuiet, h]
  rw [this, h]

theorem SetupSound.ends (h : EndsAs s u t) (hu : SetupSound u) : SetupSound t := by
  obtain ⟨hset, harb, -⟩ := hu
  have hsettle : SetupInRange u.settle ∧ u.settle.arbiter.Sound :=
    ⟨State.reportQuiet_setup (State.callChoice_setup hset), by
      rw [u.settle_arbiter]; exact State.callChoice_sound harb⟩
  have hchoice : SetupInRange u.callChoice ∧ u.callChoice.arbiter.Sound :=
    ⟨State.callChoice_setup hset, State.callChoice_sound harb⟩
  cases h with
  | finish => exact ⟨hsettle.1, hsettle.2, closeOf_turn harb (mt State.settle_exchange_none) u.settle_arbiter⟩
  | finishWait => exact ⟨hchoice.1, hchoice.2, closeOf_turn harb id rfl⟩
  | finishCommand => exact ⟨hsettle.1, hsettle.2, nofun⟩
  | finishCommandWait => exact ⟨hchoice.1, hchoice.2, nofun⟩

theorem BeatTimer.tick_running (b : BeatTimer) : b.tick.running = b.running := by
  simp only [BeatTimer.running, bne, Bool.not_inj_iff]
  exact Bool.eq_iff_iff.mpr (by simpa using b.tick_beats)

theorem SetupSound.tick (h : SetupSound s) : SetupSound s.tick := by
  unfold State.tick
  split
  · exact h
  · obtain ⟨hset, ⟨hrun, hpos⟩, -⟩ := h
    exact ⟨hset, ⟨fun ht => hrun (by rwa [← BeatTimer.tick_running]), hpos⟩, nofun⟩

theorem setupSound_reset (q : List Instr) : SetupSound { State.reset with resetHeld := true, pending := q } := by
  exact ⟨(by decide : SetupInRange State.reset), ⟨nofun, fun _ => rfl⟩, nofun⟩

theorem setupSound_kept : Kept SetupSound where
  pending _ _ h := h
  update _ _ _ := SetupSound.update
  remove s h := by
    unfold State.removeCompletion
    split <;> exact h.of_same {}
  ends _ _ _ := SetupSound.ends
  tick _ := SetupSound.tick
  controllerReset s h := by
    obtain ⟨⟨h1, h2, h3, h4, h5, h6, h7, -⟩, -, -⟩ := h
    exact ⟨⟨h1, h2, h3, h4, h5, h6, h7, show HostWindow.reset.winOffset.getLsbD 0 = false from rfl⟩, ⟨nofun, fun _ => rfl⟩, nofun⟩
  hardwareReset := setupSound_reset
  resetRelease _ h := h

/-- Settles O54: every update and every end of a happening keeps the setup values in range and a round apart from the poll
period timer. -/
theorem setupStaysInRange : Obligations.SetupStaysInRange :=
  fun _ _ hs h => setupSound_kept.step h hs

end Sys2Proof.Machine
end

section
set_option Elab.async false
/-! PROOFS. The invariant about the marks and the bytes of the store (O55), and the two about the Completion Queue (O56,
O18). -/

namespace Sys2Proof.Machine

open Sys2Proof.Safety

variable {d : Prop} {s t u : State}

/-! ### Marks and bytes: O55 -/

/-- O55's invariant. -/
def StoreMarked (s : State) : Prop := RestraintFollowsMarks s ∧ BytesCanonical s

theorem StoreMarked.of_same (h : StoreMarked s) (hst : SameBlocks s t) : StoreMarked t := by
  obtain ⟨hlist, hbytes, hlow, hhigh, hr⟩ := hst
  unfold StoreMarked RestraintFollowsMarks BytesCanonical State.freeCount
  rw [hlist, hbytes, hlow, hhigh, hr]
  exact h

theorem StoreMarked.of_store (h : StoreMarked s) (hst : t.store = s.store) : StoreMarked t := by
  refine h.of_same ?_
  rw [SameBlocks, hst]
  exact ⟨rfl, rfl, rfl, rfl, rfl⟩

/-- A descriptor has no part in it. -/
theorem StoreMarked.setRecord (h : StoreMarked s) (g : Handle) (r : Descriptor) : StoreMarked (s.setRecord g r) := h

/-- A decrease of the free count is followed by the evaluation against LOW (R130). -/
theorem StoreMarked.takeBlocks (h : StoreMarked s) (n : Nat) : StoreMarked (s.takeBlocks n) := by
  obtain ⟨⟨hlow, hlt, hhigh, hrestrained, hopen⟩, hbytes⟩ := h
  rw [State.takeBlocks_eq]
  refine ⟨⟨hlow, hlt, hhigh, ?_, ?_⟩, hbytes⟩ <;>
    simp only [State.freeCount, List.length_drop, Restraint.afterDecrease] <;> intro hc
  · rw [if_pos hc]
  · rw [if_neg (by omega)]
    exact hopen (by simp only [State.freeCount]; omega)

/-- An increase of the free count is followed by the evaluation against HIGH (R130). -/
theorem StoreMarked.returnBlocks (h : StoreMarked s) (chain : List Block) : StoreMarked (s.returnBlocks chain) := by
  obtain ⟨⟨hlow, hlt, hhigh, hrestrained, hopen⟩, hbytes⟩ := h
  by_cases hnil : chain = []
  · simp only [State.returnBlocks, hnil, if_true]
    exact ⟨⟨hlow, hlt, hhigh, hrestrained, hopen⟩, hbytes⟩
  · rw [State.returnBlocks_eq]
    refine ⟨⟨hlow, hlt, hhigh, ?_, ?_⟩, hbytes⟩ <;>
      simp only [State.freeCount, List.length_append, Restraint.afterIncrease, if_neg hnil] <;> intro hc
    · rw [if_neg (by omega)]
      exact hrestrained (by simp only [State.freeCount]; omega)
    · rw [if_pos hc]

theorem StoreMarked.freeRecord (h : StoreMarked s) (g : Handle) : StoreMarked (s.freeRecord g) :=
  (h.setRecord g _).returnBlocks _

theorem StoreMarked.complete (h : StoreMarked s) (i : SlotId) (o : Outcome) (b : Byte) (n : Nat) (g : Option Handle) :
    StoreMarked (s.complete i o b n g) := by
  cases hx : s.slot i with
  | none => rw [s.complete_none i o b n g hx]; exact h
  | some x =>
    rw [s.complete_some i o b n g x hx]
    refine StoreMarked.of_store (s := s.settled x.handle o) ?_ (by simp)
    unfold State.settled State.settleRecord
    split
    · split
      · exact h.freeRecord _
      · exact h.setRecord _ _
    · exact h

/-- What completing one command keeps, completing a list of them keeps. -/
theorem State.foldl_complete_keeps {P : State → Prop}
    (hP : ∀ (s : State) (i : SlotId) (o : Outcome) (b : Byte) (n : Nat) (g : Option Handle),
      P s → P (s.complete i o b n g)) (l : List SlotId) (f : SlotId → Outcome × Byte × Nat) (s : State) (hs : P s) :
    P (l.foldl (fun t i => t.complete i (f i).1 (f i).2.1 (f i).2.2 none) s) := by
  induction l generalizing s with
  | nil => exact hs
  | cons i l ih => exact ih _ (hP s i _ _ _ _ hs)

theorem StoreMarked.completeAll (h : StoreMarked s) (e : EntryId) (f : SlotId → Outcome × Byte × Nat) :
    StoreMarked (s.completeAll e f) :=
  State.foldl_complete_keeps (fun _ i o b n g hs => hs.complete i o b n g) _ f s h

/-- New marks are evaluated at once (R132). -/
theorem StoreMarked.evalMarks (hbytes : BytesCanonical s) (hlow : s.store.low ≤ 510) (hlt : s.store.low < s.store.high)
    (hhigh : s.store.high ≤ 512) : StoreMarked s.evalMarks := by
  rw [State.evalMarks_eq, State.setRestraint_eq]
  refine ⟨⟨hlow, hlt, hhigh, fun hc => ?_, fun hc => ?_⟩, hbytes⟩
  · exact if_pos hc
  · change s.store.high ≤ s.freeCount at hc
    exact (if_neg (by omega)).trans (if_pos hc)

theorem StoreMarked.setBytes (h : StoreMarked s) {m : List Host.Cell} (hm : Memory.wf m) :
    StoreMarked { s with store := { s.store with bytes := m } } := ⟨h.1, hm⟩

theorem StoreMarked.update (h : Update d s t) (hs : StoreMarked s) : StoreMarked t := by
  cases h with
  | complete i o b n g => exact hs.complete i o b n g
  | lose e E b x =>
    exact (StoreMarked.completeAll (s := s.setEntry e E) hs e _).of_store rfl
  | beginArrival source => rw [s.beginArrival_frame]; exact hs
  | appendBlock h b => exact (hs.setRecord h _).takeBlocks 1
  | writeByte h k v =>
    have hwf := s.wf_writeRecordByte h k v hs.2
    have hframe : s.writeRecordByte h k v =
        { s with store := { s.store with bytes := (s.writeRecordByte h k v).store.bytes } } := by
      unfold State.writeRecordByte
      split <;> rfl
    rw [hframe]
    exact hs.setBytes hwf
  | discard =>
    rcases s.discardArrival_cases with ⟨-, e⟩ | ⟨a, -, -, e⟩ | ⟨a, h, -, -, e⟩ <;> rw [e]
    · exact hs
    · exact hs
    · exact (hs.freeRecord h).of_store rfl
  | takeSlot _ x v hok =>
    obtain ⟨i, -, -, -, rfl⟩ := State.takeSlot_taken hok
    rw [State.joinList_frame]
    refine StoreMarked.of_store (s := (s.setSlot i (some x)).queueRecord x.handle x.keep) ?_ rfl
    cases x.handle with
    | none => exact hs
    | some h => exact hs.setRecord h _
  | detach e => exact (hs.completeAll e (s.detachOutcome e)).of_store rfl
  | takeBack e =>
    rcases s.takeBack_cases e with ⟨c, x, -, ht⟩ | ⟨-, ht⟩ <;> rw [ht]
    · rw [(s.closePending_eq x).1]
      exact hs
    · exact hs
  | allocate h n => exact ((hs.setRecord h _).setBytes (wf_zeroBlocks _ _ hs.2)).takeBlocks _
  | free h => exact hs.freeRecord h
  | release h rest => exact StoreMarked.freeRecord (s := { s with inbound := { s.inbound with list := rest } }) hs h
  | marks low high h1 h2 h3 =>
    exact StoreMarked.evalMarks (s := { s with store := { s.store with low := low, high := high } }) hs.2 h1 h2 h3
  | linger =>
    unfold State.lingerUp
    split <;> exact hs
  | _ => exact hs

theorem storeMarked_kept : Kept StoreMarked where
  pending _ _ h := h
  update _ _ _ := StoreMarked.update
  remove s h := by
    unfold State.removeCompletion
    split <;> exact h
  ends _ _ _ := EndsAs.keeps (fun s h => by rw [State.callChoice_frame]; exact h)
    (fun s h => by rw [State.reportQuiet_frame]; exact h) fun _ _ h => h
  tick s h := by
    unfold State.tick
    split <;> exact h
  controllerReset s h := by
    obtain ⟨⟨hlow, hlt, hhigh, -, -⟩, hbytes⟩ := h
    refine ⟨⟨hlow, hlt, hhigh, fun hc => ?_, fun _ => rfl⟩, hbytes⟩
    simp only [State.freeCount, State.controllerReset, State.accept, RecordStore.reset, List.length_finRange] at hc
    omega
  hardwareReset q := by
    obtain ⟨hlow, hlt, hhigh⟩ : Config.resetLow ≤ 510 ∧ Config.resetLow < Config.resetHigh ∧ Config.resetHigh ≤ 512 := by
      decide
    refine ⟨⟨hlow, hlt, hhigh, fun hc => ?_, fun _ => rfl⟩, wf_reset⟩
    simp only [State.freeCount, State.reset, RecordStore.reset, List.length_finRange] at hc
    omega
  resetRelease _ h := h

/-- Settles O55: every change of the free count or of the marks is followed by its evaluation, and every write of a byte
keeps the canonical form. -/
theorem restraintFollowsTheMarks : Obligations.RestraintFollowsTheMarks :=
  fun _ _ hs h => storeMarked_kept.step h hs

/-! ### Completions: O56 and O18 -/

/-- O56's part about the coalescing state, said of the queue. -/
def CompletionQueue.Coalesced (q : CompletionQueue) : Prop :=
  1 ≤ q.threshold.toNat ∧ q.threshold.toNat ≤ 32 ∧
    (q.entries = [] → q.ready = false ∧ q.lingerTimer = 0#8) ∧
    (q.threshold.toNat ≤ q.entries.length → q.ready = true ∧ q.lingerTimer = 0#8)

/-- O56's invariant. -/
def QueueSound (s : State) : Prop := s.queue.Coalesced ∧ CommitmentBounded s

theorem CompletionQueue.Coalesced.evalPosting {q : CompletionQueue} (h : q.Coalesced) (c : Completion) :
    ({ q with entries := q.entries ++ [c] } : CompletionQueue).evalPosting.Coalesced := by
  obtain ⟨h1, h2, -, h4⟩ := h
  unfold CompletionQueue.evalPosting CompletionQueue.atThreshold
  split
  · exact ⟨h1, h2, fun he => by simp at he, fun _ => ⟨rfl, rfl⟩⟩
  · next hn => exact ⟨h1, h2, fun he => by simp at he, fun hle => absurd hle (by simpa using hn)⟩

theorem CompletionQueue.Coalesced.evalWrite {q : CompletionQueue} (h1 : 1 ≤ q.threshold.toNat)
    (h2 : q.threshold.toNat ≤ 32) (h3 : q.entries = [] → q.ready = false ∧ q.lingerTimer = 0#8) :
    q.evalWrite.Coalesced := by
  unfold CompletionQueue.evalWrite CompletionQueue.atThreshold
  split
  · next hle =>
    refine ⟨h1, h2, fun he => ?_, fun _ => ⟨rfl, rfl⟩⟩
    have he' : q.entries = [] := he
    simp [he'] at hle
    omega
  · next hn =>
    split
    · exact ⟨h1, h2, fun he => ⟨(h3 he).1, rfl⟩, fun hle => absurd hle (by simpa using hn)⟩
    · exact ⟨h1, h2, h3, fun hle => absurd hle (by simpa using hn)⟩

/-- The slots in use, one of them written. -/
theorem State.slotsInUse_setSlot (s : State) (i : SlotId) (x : Option Slot) :
    (s.setSlot i x).slotsInUse + (s.slot i).isSome.toNat = s.slotsInUse + x.isSome.toNat := by
  have hi : i.val < s.command.slots.toList.length := by simp
  have hget : s.command.slots.toList[i.val] = s.slot i := by simp [State.slot]
  have hset : (s.setSlot i x).slotsInUse = (s.command.slots.toList.set i.val x).countP Option.isSome := by
    simp [State.slotsInUse, State.setSlot, Vector.toList_set]
  have hused : (s.slot i).isSome = true → 0 < s.slotsInUse := fun h =>
    List.countP_pos_iff.mpr ⟨s.slot i, by rw [← hget]; exact List.getElem_mem hi, h⟩
  rw [hset, List.countP_set hi, hget]
  change s.slotsInUse - _ + _ + _ = _
  cases hs : (s.slot i).isSome <;> cases x.isSome <;> simp [hs] at hused ⊢ <;> omega

theorem State.commitment_of_eq (hslots : t.command.slots = s.command.slots) (hqueue : t.queue.entries = s.queue.entries) :
    t.commitment = s.commitment := by
  rw [State.commitment, State.commitment, State.slotsInUse, State.slotsInUse, hslots, hqueue]

/-- A slot in use stays one commitment, whatever else is written of it. -/
theorem State.commitment_setSlot {i : SlotId} {x y : Slot} (hx : s.slot i = some x) :
    (s.setSlot i (some y)).commitment = s.commitment := by
  have h := s.slotsInUse_setSlot i (some y)
  rw [hx] at h
  simp only [Option.isSome_some] at h
  simp only [State.commitment]
  have hq : (s.setSlot i (some y)).queue = s.queue := rfl
  rw [hq]
  omega

/-- A command that completes leaves its slot and joins the queue: one commitment, as before (R159, R163). -/
theorem State.commitment_complete (s : State) (i : SlotId) (o : Outcome) (b : Byte) (n : Nat) (g : Option Handle) :
    (s.complete i o b n g).commitment = s.commitment := by
  cases hx : s.slot i with
  | none => rw [s.complete_none i o b n g hx]
  | some x =>
    rw [s.complete_some i o b n g x hx]
    have hsame := s.settled_sameButStore x.handle o
    generalize x.completion o b n (s.completedHandle x.handle o g) = c
    generalize s.settled x.handle o = u at hsame
    have hslot : u.slot i = some x := by rw [State.slot, hsame.command]; exact hx
    have hslots : (u.post i x.place c).command.slots = (u.setSlot i none).command.slots := by
      cases x.place <;> rfl
    have hcount := u.slotsInUse_setSlot i none
    rw [hslot] at hcount
    simp only [Option.isSome_some, Option.isSome_none, Bool.toNat_true, Bool.toNat_false] at hcount
    have hpost : (u.post i x.place c).slotsInUse = (u.setSlot i none).slotsInUse := by
      rw [State.slotsInUse, hslots]
      rfl
    have hbefore : u.commitment = s.commitment := State.commitment_of_eq (by rw [hsame.command]) (by rw [hsame.queue])
    rw [← hbefore]
    simp only [State.commitment, hpost, State.post_queue, CompletionQueue.evalPosting_entries, List.length_append,
      List.length_singleton]
    omega

theorem QueueSound.of_eq (h : QueueSound s) (hqueue : t.queue = s.queue) (hslots : t.command.slots = s.command.slots) :
    QueueSound t := by
  refine ⟨by rw [hqueue]; exact h.1, ?_⟩
  rw [CommitmentBounded, State.commitment_of_eq hslots (by rw [hqueue])]
  exact h.2

theorem QueueSound.of_sameButStore (h : QueueSound s) (hst : SameButStore s t) : QueueSound t :=
  h.of_eq hst.queue (by rw [hst.command])

theorem QueueSound.complete (h : QueueSound s) (i : SlotId) (o : Outcome) (b : Byte) (n : Nat) (g : Option Handle) :
    QueueSound (s.complete i o b n g) := by
  refine ⟨?_, by rw [CommitmentBounded, State.commitment_complete]; exact h.2⟩
  cases hx : s.slot i with
  | none => rw [s.complete_none i o b n g hx]; exact h.1
  | some x =>
    rw [s.complete_some i o b n g x hx, State.post_queue, (s.settled_sameButStore x.handle o).queue]
    exact h.1.evalPosting _

theorem QueueSound.completeAll (h : QueueSound s) (e : EntryId) (f : SlotId → Outcome × Byte × Nat) :
    QueueSound (s.completeAll e f) :=
  State.foldl_complete_keeps (fun _ i o b n g hs => hs.complete i o b n g) _ f s h

theorem QueueSound.setSlot (h : QueueSound s) {i : SlotId} {x : Slot} (hx : s.slot i = some x) (y : Slot) :
    QueueSound (s.setSlot i (some y)) :=
  ⟨h.1, by rw [CommitmentBounded, State.commitment_setSlot hx]; exact h.2⟩

/-- A slot taken is one commitment more, below the limit (R159). -/
theorem QueueSound.takeSlot (h : QueueSound s) {x : Slot} {v : BitVec 6} (hok : s.takeSlot x = .ok (t, v)) :
    QueueSound t := by
  obtain ⟨i, hroom, hfree, -, rfl⟩ := State.takeSlot_taken hok
  have hcount := s.slotsInUse_setSlot i (some x)
  rw [((s.lowestFreeSlot_some i).mp hfree).1] at hcount
  simp only [Option.isSome_some, Option.isSome_none, Bool.toNat_true, Bool.toNat_false] at hcount
  have hset : QueueSound (s.setSlot i (some x)) := by
    refine ⟨h.1, ?_⟩
    have hq : (s.setSlot i (some x)).queue = s.queue := rfl
    show _ ≤ 32
    simp only [State.commitment, hq] at hroom ⊢
    omega
  rw [State.joinList_frame]
  exact (hset.of_sameButStore (State.queueRecord_sameButStore _ _ _)).of_eq rfl rfl

@[simp] theorem CompletionQueue.evalWrite_entries (q : CompletionQueue) : q.evalWrite.entries = q.entries := by
  unfold CompletionQueue.evalWrite
  split
  · rfl
  · split <;> rfl

theorem State.writeCoalesce_entries (s : State) (v : Word) : (s.writeCoalesce v).queue.entries = s.queue.entries :=
  CompletionQueue.evalWrite_entries _

theorem QueueSound.writeCoalesce (h : QueueSound s) (v : Word) : QueueSound (s.writeCoalesce v) := by
  obtain ⟨⟨h1, h2, h3, -⟩, hc⟩ := h
  refine ⟨?_, (State.commitment_of_eq (s := s) (t := s.writeCoalesce v) rfl (s.writeCoalesce_entries v)).trans_le hc⟩
  refine CompletionQueue.Coalesced.evalWrite ?_ ?_ h3 <;> dsimp only <;> split
  · next hr => exact hr.1
  · exact h1
  · next hr => exact hr.2
  · exact h2

theorem QueueSound.lingerUp (h : QueueSound s) : QueueSound s.lingerUp := by
  unfold State.lingerUp
  split
  · exact h
  · next hrun =>
    obtain ⟨⟨h1, h2, h3, h4⟩, hc⟩ := h
    refine ⟨⟨h1, h2, fun he => absurd (h3 he).2 hrun, fun hle => absurd (h4 hle).2 hrun⟩, ?_⟩
    exact (State.commitment_of_eq rfl rfl).trans_le hc

/-- A removal leaves the queue shorter, and an empty one with the flag clear (R164, R165). -/
theorem QueueSound.removeCompletion (h : QueueSound s) : QueueSound s.removeCompletion := by
  unfold State.removeCompletion
  split
  · exact h
  · next c rest he =>
    obtain ⟨⟨h1, h2, -, h4⟩, hc⟩ := h
    rw [he] at h4
    refine ⟨?_, ?_⟩
    · unfold CompletionQueue.evalRemoval
      split
      · next hr =>
        refine ⟨h1, h2, fun _ => ⟨rfl, rfl⟩, fun hle => ?_⟩
        change s.queue.threshold.toNat ≤ rest.length at hle
        have hr' : rest = [] := hr
        rw [hr'] at hle
        simp at hle
        omega
      · next hr => exact ⟨h1, h2, fun h => absurd h hr, fun hle => h4 (Nat.le_succ_of_le hle)⟩
    · have hlen : ({ s.queue with entries := rest } : CompletionQueue).evalRemoval.entries = rest := by
        unfold CompletionQueue.evalRemoval
        split <;> rfl
      have hslots : State.slotsInUse { s with queue := ({ s.queue with entries := rest } : CompletionQueue).evalRemoval } =
        s.slotsInUse := rfl
      show _ ≤ 32
      change _ ≤ 32 at hc
      simp only [State.commitment, hlen, hslots, he, List.length_cons] at hc ⊢
      omega

theorem QueueSound.update (h : Update d s t) (hs : QueueSound s) : QueueSound t := by
  cases h with
  | complete i o b n g => exact hs.complete i o b n g
  | lose e E b x =>
    exact (QueueSound.completeAll (s := s.setEntry e E) hs e _).of_eq rfl rfl
  | beginArrival source => rw [s.beginArrival_frame]; exact hs
  | appendBlock h b => exact hs.of_sameButStore (s.appendBlock_sameButStore h b)
  | writeByte h k v => exact hs.of_sameButStore (s.writeRecordByte_sameButStore h k v)
  | discard =>
    obtain ⟨-, -, hcommand, hqueue, -⟩ := s.discardArrival_discarded
    exact hs.of_eq hqueue (by rw [hcommand])
  | slot i x y hx => exact hs.setSlot hx y
  | takeSlot _ x v hok => exact hs.takeSlot hok
  | detach e => exact (hs.completeAll e (s.detachOutcome e)).of_eq rfl rfl
  | takeBack e =>
    rcases s.takeBack_cases e with ⟨c, x, -, ht⟩ | ⟨-, ht⟩ <;> rw [ht]
    · rw [(s.closePending_eq x).1]
      exact hs
    · exact hs
  | allocate h n => exact hs.of_sameButStore (s.allocate_sameButStore h n)
  | free h => exact hs.of_sameButStore (s.freeRecord_sameButStore h)
  | release h rest =>
    exact QueueSound.of_sameButStore (s := { s with inbound := { s.inbound with list := rest } }) hs
      (State.freeRecord_sameButStore _ h)
  | marks low high =>
    exact QueueSound.of_sameButStore (s := { s with store := { s.store with low := low, high := high } }) hs
      (State.evalMarks_sameButStore _)
  | coalesce v => exact hs.writeCoalesce v
  | linger => exact hs.lingerUp
  | _ => exact hs

/-- The attempt count writes a slot in use. -/
theorem QueueSound.countAttempt (h : QueueSound s) (i : Option SlotId) : QueueSound (s.countAttempt i) := by
  unfold State.countAttempt
  split
  · split
    · next hx => exact h.setSlot hx _
    · exact h
  · exact h

theorem QueueSound.reportQuiet (h : QueueSound s) : QueueSound s.reportQuiet := by
  rcases s.reportQuiet_cases with ⟨x, -, -, -, e⟩ | ⟨x, -, -, -, e⟩ | ⟨-, e⟩ <;> rw [e]
  · exact (h.countAttempt x.slot).of_eq rfl rfl
  · unfold State.enterAnswer
    split
    · rw [s.countRefusal_frame]
      exact h
    · exact h
  · exact h

/-- The linger timer counts, but does not stop or start (assumption 1). -/
theorem tickCount_eq_zero {w : Nat} (b : BitVec w) : tickCount b = 0#w ↔ b = 0#w := by
  unfold tickCount
  split
  · next h =>
    refine ⟨fun he => ?_, fun he => by rw [he] at h; simp at h⟩
    have hone : b = 1#w := by simpa using BitVec.sub_eq_iff_eq_add.mp he
    rw [hone, BitVec.toNat_ofNat] at h
    exact absurd h (by have := Nat.mod_le 1 (2 ^ w); omega)
  · exact Iff.rfl

theorem QueueSound.tick (h : QueueSound s) : QueueSound s.tick := by
  unfold State.tick
  split
  · exact h
  · obtain ⟨⟨h1, h2, h3, h4⟩, hc⟩ := h
    refine ⟨⟨h1, h2, fun he => ⟨(h3 he).1, (tickCount_eq_zero _).mpr (h3 he).2⟩,
      fun hle => ⟨(h4 hle).1, (tickCount_eq_zero _).mpr (h4 hle).2⟩⟩, hc⟩

theorem State.reset_commitment : State.reset.commitment = 0 := by decide

theorem queueSound_kept : Kept QueueSound where
  pending _ _ h := h
  update _ _ _ := QueueSound.update
  remove _ := QueueSound.removeCompletion
  ends _ _ _ := EndsAs.keeps (fun s h => by rw [State.callChoice_frame]; exact h)
    (fun _ => QueueSound.reportQuiet) fun _ _ h => h
  tick _ := QueueSound.tick
  controllerReset s h := by
    obtain ⟨⟨h1, h2, -, -⟩, -⟩ := h
    refine ⟨⟨h1, h2, fun _ => ⟨rfl, rfl⟩, fun hle => ?_⟩, ?_⟩
    · change s.queue.threshold.toNat ≤ 0 at hle
      omega
    · exact State.reset_commitment.trans_le (Nat.zero_le _)
  hardwareReset q := ⟨(by decide : CoalescingFollowsCount State.reset), State.reset_commitment.trans_le (Nat.zero_le _)⟩
  resetRelease _ h := h

/-- Settles O56: a completion takes its command's place among the commitments, and every change of the queue is followed by
its evaluation. -/
theorem completionsStayCountedAndBounded : Obligations.CompletionsStayCountedAndBounded :=
  fun _ _ hs h => queueSound_kept.step h hs

/-- What an update adds to the queue joins its tail. -/
theorem Update.queue_prefix (h : Update d s t) : s.queue.entries <+: t.queue.entries := by
  have hcomplete (s : State) (i o b n g) : s.queue.entries <+: (s.complete i o b n g).queue.entries := by
    cases hx : s.slot i with
    | none => rw [s.complete_none i o b n g hx]
    | some x =>
      rw [s.complete_some i o b n g x hx, State.post_queue, (s.settled_sameButStore x.handle o).queue,
        CompletionQueue.evalPosting_entries]
      exact List.prefix_append _ _
  have hlist (s : State) (e f) : s.queue.entries <+: (s.completeAll e f).queue.entries :=
    State.foldl_complete_keeps (P := fun t => s.queue.entries <+: t.queue.entries)
      (fun t i o b n g ht => ht.trans (hcomplete t i o b n g)) _ f s (List.prefix_refl _)
  cases h with
  | complete i o b n g => exact hcomplete s i o b n g
  | lose e E b x => exact hlist (s.setEntry e E) e _
  | beginArrival source => rw [s.beginArrival_frame]
  | appendBlock h b => rw [(s.appendBlock_sameButStore h b).queue]
  | writeByte h k v => rw [(s.writeRecordByte_sameButStore h k v).queue]
  | discard =>
    obtain ⟨-, -, -, hqueue, -⟩ := s.discardArrival_discarded
    rw [hqueue]
  | takeSlot _ x v hok =>
    obtain ⟨i, -, -, -, rfl⟩ := State.takeSlot_taken hok
    rw [State.joinList_frame, (State.queueRecord_sameButStore _ _ _).queue]
    exact List.prefix_refl _
  | detach e => exact hlist s e (s.detachOutcome e)
  | takeBack e =>
    rcases s.takeBack_cases e with ⟨c, x, -, ht⟩ | ⟨-, ht⟩ <;> rw [ht]
    rw [(s.closePending_eq x).1]
  | allocate h n => rw [(s.allocate_sameButStore h n).queue]
  | free h => rw [(s.freeRecord_sameButStore h).queue]
  | release h rest => rw [(State.freeRecord_sameButStore _ h).queue]
  | marks low high => rw [(State.evalMarks_sameButStore _).queue]
  | coalesce v => rw [s.writeCoalesce_entries]
  | linger =>
    unfold State.lingerUp
    split <;> exact List.prefix_refl _
  | _ => exact List.prefix_refl _

/-- However a happening ends, it leaves the queue to its effect. -/
theorem EndsAs.queue (h : EndsAs s u t) : t.queue = u.queue :=
  h.keeps (P := fun t => t.queue = u.queue) (fun s hs => by rw [State.callChoice_frame]; exact hs)
    (fun s hs => by rw [State.reportQuiet_frame]; exact hs) (fun _ _ hs => hs) rfl

/-- Settles O18: every update of every other command only adds to the queue's tail. -/
theorem completionsOnlyJoinTheTail : Obligations.CompletionsOnlyJoinTheTail := by
  intro c s t h hremove hcreset hreset
  suffices hpre : s.queue.entries <+: t.queue.entries from
    let ⟨added, hadded⟩ := hpre
    ⟨added, hadded.symm⟩
  rcases exec_taken h with (⟨-, rfl⟩ | ⟨-, u, hu, hends⟩) | ⟨v, rfl, -⟩ | ⟨rfl, -⟩ | ⟨rfl, -⟩ | ⟨-, rfl⟩
  · exact List.prefix_refl _
  · rw [hends.queue]
    clear hends
    induction hu with
    | refl => exact List.prefix_refl _
    | tail _ hup ih => exact ih.trans hup.queue_prefix
  · exact absurd rfl (hremove v)
  · exact absurd rfl hcreset
  · exact absurd rfl hreset
  · exact List.prefix_refl _

end Sys2Proof.Machine
end

section
set_option Elab.async false
/-! PROOFS. The Station Table and the lists (O57): one lemma for an entry that keeps its station, one for the slots and the
lists, and then each update. -/

namespace Sys2Proof.Machine

open Sys2Proof.Safety

variable {d : Prop} {s t u : State}

/-! ### One entry -/

/-- The failures in a row of a kept entry, below the limit where they were (R104, R107). -/
theorem satInc_lt {c l : BitVec 4} (h : c.toNat < l.toNat) (hne : satInc c ≠ l) : (satInc c).toNat < l.toNat := by
  have hle : (satInc c).toNat ≤ c.toNat + 1 := by
    unfold satInc
    split
    · omega
    · rw [BitVec.toNat_add]
      exact (Nat.mod_le _ _).trans (by simp)
  have : (satInc c).toNat ≠ l.toNat := fun he => hne (BitVec.eq_of_toNat_eq he)
  omega

/-- An entry that keeps its station stays sound. -/
theorem EntrySound.kept {a b : Entry} (h : EntrySound a) (hsame : SameStation a b)
    (hfail : b.consecFail = a.consecFail ∨ b.consecFail = 0#4 ∨
      (b.consecFail = satInc a.consecFail ∧ b.consecFail ≠ a.failLimit)) (hvacant : a = Entry.vacant → b = Entry.vacant) :
    EntrySound b := by
  obtain ⟨h1, h2, h3, h4, h5⟩ := h
  obtain ⟨hs, ha, hl, ho, hp, -⟩ := hsame
  rw [EntrySound, hs, ha, hl, ho, hp]
  refine ⟨fun hv => hvacant (h1 hv), h2, h3, fun hr => ?_, h5⟩
  have hlt := h4 hr
  rcases hfail with hf | hf | ⟨hf, hne⟩
  · rw [hf]; exact hlt
  · rw [hf]; exact Nat.zero_lt_of_lt hlt
  · rw [hf] at hne ⊢; exact satInc_lt hlt hne

/-- The same where only what is neither its station nor its failures in a row changes. -/
theorem EntrySound.same {a b : Entry} (h : EntrySound a) (hsame : SameStation a b) (hc : b.consecFail = a.consecFail)
    (hvacant : a = Entry.vacant → b = Entry.vacant) : EntrySound b := EntrySound.kept h hsame (.inl hc) hvacant

/-- A command that leaves the list keeps the entry sound. -/
theorem EntrySound.erase {a : Entry} (h : EntrySound a) (i : SlotId) :
    EntrySound { a with pendingList := a.pendingList.erase i } := by
  obtain ⟨h1, h2, h3, h4, h5⟩ := h
  refine ⟨fun hv => ?_, h2, h3, h4, fun hf => by rw [h5 hf]; rfl⟩
  rw [h1 hv]
  rfl

/-! ### The table -/

/-- A table whose entries are sound, keep their standing and address, and whose exchange is as it was or none. -/
theorem TableSound.of_entries (h : TableSound s) (hentry : ∀ i, EntrySound (t.entry i))
    (hstate : ∀ i, (t.entry i).state = (s.entry i).state) (haddress : ∀ i, (t.entry i).address = (s.entry i).address)
    (hx : ∀ y, t.exchange = some y → ∃ x, s.exchange = some x ∧ y.kind = x.kind ∧ y.place = x.place ∧ y.slot = x.slot) :
    TableSound t := by
  obtain ⟨-, haddr, hexchange⟩ := h
  refine ⟨hentry, fun i j hi hj => ?_, fun y hy => ?_⟩
  · rw [hstate] at hi hj
    rw [haddress, haddress]
    exact haddr i j hi hj
  · obtain ⟨x, hsx, hk, hp, hsl⟩ := hx y hy
    have := hexchange x hsx
    simp only [ExchangeSound, hk, hp, hsl, hstate]
    exact this

theorem TableSound.not_vacant {x : Exchange} {e : EntryId} (h : TableSound s) (hx : s.exchange = some x)
    (hp : x.place = .station e) :
    ((s.entry e).state = .working ∧ x.kind = .probe) ∨ ((s.entry e).state = .ready ∧ x.kind ≠ .probe) := by
  have := (h.2.2 x hx).1
  rwa [hp] at this

/-- One entry of a free line's table is written anew: sound, and with no other station's address. -/
theorem TableSound.setEntry (h : TableSound s) (e : EntryId) {E : Entry} (hE : EntrySound E)
    (haddress : E.state ≠ .vacant → ∀ j, j ≠ e → (s.entry j).state ≠ .vacant → (s.entry j).address ≠ E.address)
    (hx : ∀ x, s.exchange = some x → x.place ≠ .station e) : TableSound (s.setEntry e E) := by
  obtain ⟨hentry, haddr, hexchange⟩ := h
  refine ⟨fun i => ?_, fun i j hi hj ha => ?_, fun x hsx => ?_⟩
  · rw [State.entry_setEntry]
    split
    · exact hE
    · exact hentry i
  · rw [State.entry_setEntry] at hi hj ha
    rw [State.entry_setEntry] at ha
    by_cases hie : e = i <;> by_cases hje : e = j
    · rw [← hie, ← hje]
    · rw [if_pos hie, if_neg hje] at ha
      rw [if_neg hje] at hj
      rw [if_pos hie] at hi
      exact absurd ha.symm (haddress hi j (Ne.symm hje) hj)
    · rw [if_neg hie, if_pos hje] at ha
      rw [if_neg hie] at hi
      rw [if_pos hje] at hj
      exact absurd ha (haddress hj i (Ne.symm hie) hi)
    · rw [if_neg hie, if_neg hje] at ha
      rw [if_neg hie] at hi
      rw [if_neg hje] at hj
      exact haddr i j hi hj ha
  · have hold := hexchange x hsx
    refine ⟨?_, hold.2⟩
    have hplace := hold.1
    cases hp : x.place with
    | broadcast => rwa [hp] at hplace
    | station i =>
      rw [hp] at hplace
      have hie : e ≠ i := fun h => hx x hsx (by rw [hp, h])
      simp only [State.entry_setEntry, if_neg hie]
      exact hplace

theorem TableSound.close (h : TableSound s) : TableSound (s.setExchange none) := ⟨h.1, h.2.1, fun _ hx => absurd hx (Option.not_mem_none _)⟩

/-! ### Slots and lists -/

theorem slotsListed_iff (s : State) :
    SlotsListed s ↔ (∀ p i, i ∈ State.listOf s p ↔ (s.slot i).map Slot.place = some p) ∧
      ∀ p, (State.listOf s p).Nodup := by
  constructor
  · rintro ⟨h1, h2, h3, h4⟩
    refine ⟨fun p i => ?_, fun p => ?_⟩ <;> cases p with
    | station e => first | exact h1 i e | exact h3 e
    | broadcast => first | exact h2 i | exact h4
  · rintro ⟨h1, h2⟩
    exact ⟨fun i e => h1 (.station e) i, fun i => h1 .broadcast i, fun e => h2 (.station e), h2 .broadcast⟩

theorem SlotsListed.of_same (h : SlotsListed s) (hplace : ∀ i, (t.slot i).map Slot.place = (s.slot i).map Slot.place)
    (hlist : ∀ p, State.listOf t p = State.listOf s p) : SlotsListed t := by
  rw [slotsListed_iff] at h ⊢
  simpa only [hplace, hlist] using h

/-- A slot leaves its list and is freed. -/
theorem SlotsListed.leave (h : SlotsListed s) {i : SlotId} {p : Place} (hi : (s.slot i).map Slot.place = some p)
    (hslot : ∀ j, t.slot j = if i = j then none else s.slot j)
    (hlist : ∀ q, State.listOf t q = if q = p then (State.listOf s q).erase i else State.listOf s q) : SlotsListed t := by
  rw [slotsListed_iff] at h ⊢
  obtain ⟨hmem, hnodup⟩ := h
  refine ⟨fun q j => ?_, fun q => ?_⟩
  · rw [hslot, hlist]
    by_cases hij : i = j
    · subst hij
      simp only [if_true, Option.map_none]
      refine iff_of_false ?_ nofun
      split
      · exact fun hj => ((hnodup q).mem_erase_iff.mp hj).1 rfl
      · next hq =>
        rw [hmem, hi]
        exact fun he => hq (Option.some.inj he).symm
    · rw [if_neg hij]
      split
      · rw [(hnodup q).mem_erase_iff, hmem]
        exact and_iff_right (Ne.symm hij)
      · exact hmem q j
  · rw [hlist]
    split
    · exact (hnodup q).erase i
    · exact hnodup q

/-- A free slot is taken and joins the tail of its list. -/
theorem SlotsListed.join (h : SlotsListed s) {i : SlotId} {x : Slot} (hi : s.slot i = none)
    (hslot : ∀ j, t.slot j = if i = j then some x else s.slot j)
    (hlist : ∀ q, State.listOf t q = if q = x.place then State.listOf s q ++ [i] else State.listOf s q) :
    SlotsListed t := by
  rw [slotsListed_iff] at h ⊢
  obtain ⟨hmem, hnodup⟩ := h
  have hnot (q : Place) : i ∉ State.listOf s q := by
    rw [hmem, hi]
    nofun
  refine ⟨fun q j => ?_, fun q => ?_⟩
  · rw [hslot, hlist]
    by_cases hij : i = j
    · subst hij
      by_cases hq : q = x.place
      · simp [hq]
      · simp only [if_neg hq, if_true, Option.map_some]
        exact iff_of_false (hnot q) fun he => hq (Option.some.inj he).symm
    · rw [if_neg hij, ← hmem q j]
      split
      · simp [Ne.symm hij]
      · exact Iff.rfl
  · rw [hlist]
    split
    · exact List.nodup_append.mpr ⟨hnodup q, List.nodup_singleton i,
        fun a ha b hb hab => hnot q (by rw [List.mem_singleton] at hb; rw [← hb, ← hab]; exact ha)⟩
    · exact hnodup q

/-- Every command of a station's list is finished, and its list empty. -/
theorem SlotsListed.finished (h : SlotsListed s) {e : EntryId}
    (hslot : ∀ i, t.slot i = if i ∈ (s.entry e).pendingList then none else s.slot i)
    (hlist : (t.entry e).pendingList = []) (hother : ∀ j, j ≠ e → (t.entry j).pendingList = (s.entry j).pendingList)
    (hbroadcast : t.command.broadcastList = s.command.broadcastList) : SlotsListed t := by
  obtain ⟨h1, h2, h3, h4⟩ := h
  have hkeep (i : SlotId) (p : Place) (hp : p ≠ .station e) :
      (t.slot i).map Slot.place = some p ↔ (s.slot i).map Slot.place = some p := by
    rw [hslot]
    split
    · next hi =>
      rw [(h1 i e).mp hi]
      exact iff_of_false nofun fun he => hp (Option.some.inj he).symm
    · exact Iff.rfl
  refine ⟨fun i j => ?_, fun i => ?_, fun j => ?_, by rw [hbroadcast]; exact h4⟩
  · by_cases hj : j = e
    · subst hj
      rw [hlist, hslot]
      split
      · exact iff_of_false nofun nofun
      · next hi => exact iff_of_false nofun ((h1 i j).not.mp hi)
    · rw [hother j hj, hkeep i (.station j) (fun he => hj (Place.station.inj he))]
      exact h1 i j
  · rw [hbroadcast, hkeep i .broadcast nofun]
    exact h2 i
  · by_cases hj : j = e
    · rw [hj, hlist]; exact List.nodup_nil
    · rw [hother j hj]; exact h3 j

/-! ### The updates -/

theorem ListsSound.of_same (h : ListsSound s) (hentry : ∀ i, t.entry i = s.entry i)
    (hx : ∀ y, t.exchange = some y → ∃ x, s.exchange = some x ∧ y.kind = x.kind ∧ y.place = x.place ∧ y.slot = x.slot)
    (hplace : ∀ i, (t.slot i).map Slot.place = (s.slot i).map Slot.place)
    (hbroadcast : t.command.broadcastList = s.command.broadcastList) : ListsSound t := by
  refine ⟨TableSound.of_entries h.1 (fun i => ?_) (fun i => ?_) (fun i => ?_) hx,
    SlotsListed.of_same h.2 hplace fun p => ?_⟩
  · rw [hentry]; exact h.1.1 i
  · rw [hentry]
  · rw [hentry]
  · cases p with
    | station e => exact congrArg Entry.pendingList (hentry e)
    | broadcast => exact hbroadcast

theorem ListsSound.of_eq (h : ListsSound s) (htable : t.table = s.table) (hx : t.exchange = s.exchange)
    (hcommand : t.command = s.command) : ListsSound t :=
  ListsSound.of_same h (fun i => by rw [State.entry, htable]; rfl)
    (fun y hy => ⟨y, by rw [← hx, hy], rfl, rfl, rfl⟩) (fun i => by rw [State.slot, hcommand]; rfl) (by rw [hcommand])

theorem ListsSound.of_sameButStore (h : ListsSound s) (hst : SameButStore s t) : ListsSound t :=
  ListsSound.of_eq h hst.table hst.exchange hst.command

theorem ListsSound.close (h : ListsSound s) : ListsSound (s.setExchange none) := ⟨TableSound.close h.1, h.2⟩

/-- Entries that keep their stations: the lists are as they were. -/
theorem ListsSound.of_entries (h : ListsSound s) (hentry : ∀ i, EntrySound (t.entry i))
    (hsame : ∀ i, SameStation (s.entry i) (t.entry i)) (hx : t.exchange = s.exchange)
    (hcommand : t.command = s.command) : ListsSound t := by
  refine ⟨TableSound.of_entries h.1 hentry (fun i => (hsame i).state) (fun i => (hsame i).address)
    (fun y hy => ⟨y, by rw [← hx, hy], rfl, rfl, rfl⟩), SlotsListed.of_same h.2 (fun i => ?_) fun p => ?_⟩
  · rw [State.slot, hcommand]; rfl
  · cases p with
    | station e => exact (hsame e).pendingList
    | broadcast => exact congrArg CommandUnit.broadcastList hcommand

theorem SameStation.refl (a : Entry) : SameStation a a := {}

theorem ListsSound.setEntry (h : ListsSound s) {e : EntryId} {E : Entry} (hE : s.EntryKept e E) :
    ListsSound (s.setEntry e E) := by
  have hvacant : s.entry e = Entry.vacant → E = Entry.vacant := by
    intro hv
    rcases hE.used with (hne | ⟨x, hx, hp⟩) | himp
    · exact absurd (congrArg Entry.state hv) hne
    · rcases TableSound.not_vacant h.1 hx hp with ⟨hst, -⟩ | ⟨hst, -⟩ <;> rw [hv] at hst <;> cases hst
    · exact himp hv
  refine ListsSound.of_entries h (fun i => ?_) (fun i => ?_) rfl rfl <;> rw [State.entry_setEntry] <;> split
  · next hi => subst hi; exact EntrySound.kept (h.1.1 e) hE.toSameStation hE.consecFail hvacant
  · exact h.1.1 i
  · next hi => subst hi; exact hE.toSameStation
  · exact .refl _

theorem ListsSound.complete (h : ListsSound s) (i : SlotId) (o : Outcome) (b : Byte) (n : Nat) (g : Option Handle) :
    ListsSound (s.complete i o b n g) := by
  cases hx : s.slot i with
  | none => rw [s.complete_none i o b n g hx]; exact h
  | some x =>
    rw [s.complete_some i o b n g x hx]
    generalize x.completion o b n (s.completedHandle x.handle o g) = c
    have hsettled := ListsSound.of_sameButStore h (s.settled_sameButStore x.handle o)
    have hslot : (s.settled x.handle o).slot i = some x := by
      rw [State.slot, (s.settled_sameButStore x.handle o).command]; exact hx
    generalize s.settled x.handle o = u at hsettled hslot
    have hsame := u.post_same i x.place c
    refine ⟨TableSound.of_entries hsettled.1 (fun j => ?_) (fun j => ?_) (fun j => ?_)
      (fun y hy => ⟨y, by rw [← hsame.exchange, hy], rfl, rfl, rfl⟩), SlotsListed.leave hsettled.2 (i := i)
        (p := x.place) (by rw [hslot]; rfl) (fun j => u.post_slot i x.place c j) fun q => ?_⟩
    · rw [State.post_entry]
      split
      · exact EntrySound.erase (hsettled.1.1 j) i
      · exact hsettled.1.1 j
    · rw [hsame.entry j]
    · rw [hsame.entry j]
    · cases q with
      | station e =>
        simp only [State.listOf, State.post_entry, eq_comm (a := Place.station e)]
        split <;> rfl
      | broadcast => simp only [State.listOf, State.post_broadcastList, eq_comm (a := Place.broadcast)]

theorem State.lossOutcome_not_delivers (s : State) (e : EntryId) (b : Bool) (i : SlotId) :
    (s.lossOutcome e b i).1.delivers = false := by
  unfold State.lossOutcome
  split
  · split <;> rfl
  · split <;> rfl

theorem State.detachOutcome_not_delivers (s : State) (e : EntryId) (i : SlotId) :
    (s.detachOutcome e i).1.delivers = false := by
  unfold State.detachOutcome
  split
  · rfl
  · split <;> rfl

/-- The station on the line is lost and the exchange ends: it was in use, and so is FAILED with its address. -/
theorem ListsSound.lose (h : ListsSound s) {e : EntryId} {E : Entry} (b : Bool) {x : Exchange}
    (hx : s.exchange = some x) (hp : x.place = .station e) (hE : SameStation (s.entry e) E) :
    ListsSound (((s.setEntry e E).loseStation e b).setExchange none) := by
  obtain ⟨hentry, -, -, ⟨hslot, -⟩, hother, -, -, -, -, -, -, hcommand, -⟩ := s.loseStation_lost E e b h.2
    hE.pendingList (fun i _ => (s.setEntry e E).lossOutcome e b i) (fun _ _ _ => rfl) _ rfl
  generalize (s.setEntry e E).loseStation e b = u at hentry hslot hother hcommand
  have hused : (s.entry e).state ≠ .vacant := by
    rcases TableSound.not_vacant h.1 hx hp with ⟨hst, -⟩ | ⟨hst, -⟩ <;> rw [hst] <;> nofun
  obtain ⟨haddress, hlimit⟩ := (h.1.1 e).2.1 hused
  have hlost : EntrySound E.lost :=
    ⟨nofun, fun _ => ⟨by rw [← hE.address] at haddress; exact haddress, by rw [← hE.failLimit] at hlimit; exact hlimit⟩,
      ⟨nofun, nofun⟩, fun hr => (by rcases hr with hr | hr <;> cases hr), fun _ => rfl⟩
  have hentries (j : EntryId) : u.entry j = (s.setEntry e E.lost).entry j := by
    rw [State.entry_setEntry]
    split
    · next hj => rw [← hj, hentry]
    · next hj => exact hother j (Ne.symm hj)
  have htable : TableSound ((s.setExchange none).setEntry e E.lost) := by
    refine TableSound.setEntry (TableSound.close h.1) e hlost (fun _ j hj hused' ha => ?_)
      fun _ hnone => absurd hnone (Option.not_mem_none _)
    have ha' : (s.entry j).address = (s.entry e).address := ha.trans hE.address
    exact hj (h.1.2.1 j e hused' hused ha')
  refine ⟨TableSound.of_entries htable (fun i => ?_) (fun i => ?_) (fun i => ?_)
    fun _ hnone => absurd hnone (Option.not_mem_none _), SlotsListed.finished h.2 hslot ?_ (fun j hj => ?_) ?_⟩
  · exact (hentries i).symm ▸ htable.1 i
  · exact congrArg Entry.state (hentries i)
  · exact congrArg Entry.address (hentries i)
  · exact (congrArg Entry.pendingList hentry).trans rfl
  · exact congrArg Entry.pendingList (hother j hj)
  · rw [show (u.setExchange none).command = u.command from rfl, hcommand]

/-- A station whose standing changes as its exchange ends, its open action with it. -/
theorem ListsSound.endWith (h : ListsSound s) {e : EntryId} {E : Entry} {x : Exchange}
    (hx : s.exchange = some x) (hp : x.place = .station e) (hstate : E.state = .ready ∨ E.state = .working)
    (hopen : E.state = .working ↔ E.openAction.isSome = true) (haddress : E.address = (s.entry e).address)
    (hfail : E.consecFail = (s.entry e).consecFail) (hlimit : E.failLimit = (s.entry e).failLimit)
    (hlist : E.pendingList = (s.entry e).pendingList) : ListsSound ((s.setEntry e E).setExchange none) := by
  have hused : (s.entry e).state = .ready ∨ (s.entry e).state = .working := by
    rcases TableSound.not_vacant h.1 hx hp with ⟨hst, -⟩ | ⟨hst, -⟩
    · exact .inr hst
    · exact .inl hst
  have hne : (s.entry e).state ≠ .vacant := by rcases hused with hst | hst <;> rw [hst] <;> nofun
  obtain ⟨-, h2, -, h4, -⟩ := h.1.1 e
  have hE : EntrySound E := by
    rw [EntrySound, haddress, hlimit, hfail]
    refine ⟨fun hv => ?_, fun _ => h2 hne, hopen, fun _ => h4 hused, fun hv => ?_⟩ <;>
      rcases hstate with hst | hst <;> rw [hst] at hv <;> cases hv
  refine ⟨TableSound.setEntry (TableSound.close h.1) e hE (fun _ j hj hused' ha => ?_)
      fun _ hnone => absurd hnone (Option.not_mem_none _), SlotsListed.of_same h.2 (fun _ => rfl) fun p => ?_⟩
  · exact hj (h.1.2.1 j e hused' hne (ha.trans haddress))
  · cases p with
    | station j =>
      show ((s.setEntry e E).entry j).pendingList = _
      rw [State.entry_setEntry]
      split
      · next hj => subst hj; exact hlist
      · rfl
    | broadcast => rfl

theorem ListsSound.takeSlot (h : ListsSound s) {x : Slot} {v : BitVec 6} (hok : s.takeSlot x = .ok (t, v))
    (hplace : ∀ e, x.place = .station e → (s.entry e).state ≠ .failed ∧ (s.entry e).state ≠ .vacant) :
    ListsSound t := by
  obtain ⟨i, -, hfree, -, rfl⟩ := State.takeSlot_taken hok
  have hnone : s.slot i = none := by simpa using ((s.lowestFreeSlot_some i).mp hfree).1
  have hqueued := State.queueRecord_sameButStore (s.setSlot i (some x)) x.handle x.keep
  generalize (s.setSlot i (some x)).queueRecord x.handle x.keep = q at hqueued
  have hentry (j : EntryId) : q.entry j = s.entry j := by rw [State.entry, hqueued.table]; rfl
  have hslot (j : SlotId) : (q.joinList x.place i).slot j = if i = j then some x else s.slot j := by
    rw [State.joinList_frame]
    show q.slot j = _
    rw [State.slot, hqueued.command]
    exact s.slot_setSlot i j (some x)
  have hbroadcast : q.command.broadcastList = s.command.broadcastList := by rw [hqueued.command]; rfl
  have hx : (q.joinList x.place i).exchange = s.exchange := by
    rw [State.joinList_frame]; exact hqueued.exchange
  have hentries (j : EntryId) : (q.joinList x.place i).entry j = if x.place = .station j
      then { s.entry j with pendingList := (s.entry j).pendingList ++ [i] } else s.entry j := by
    cases hp : x.place with
    | station e =>
      show (q.setEntry e _).entry j = _
      rw [State.entry_setEntry]
      by_cases hej : e = j
      · subst hej; simp [hentry]
      · simp [hej, hentry]
    | broadcast => exact (hentry j).trans (if_neg nofun).symm
  refine ⟨TableSound.of_entries h.1 (fun j => ?_) (fun j => ?_) (fun j => ?_)
    (fun y hy => ⟨y, by rw [← hx, hy], rfl, rfl, rfl⟩), SlotsListed.join h.2 hnone hslot fun p => ?_⟩
  · rw [hentries]
    split
    · next hp =>
      obtain ⟨hf, hv⟩ := hplace j hp
      obtain ⟨-, h2, h3, h4, -⟩ := h.1.1 j
      exact ⟨fun he => absurd he hv, h2, h3, h4, fun he => absurd he hf⟩
    · exact h.1.1 j
  · rw [hentries]; split <;> rfl
  · rw [hentries]; split <;> rfl
  · cases p with
    | station j =>
      simp only [State.listOf, hentries, eq_comm (a := Place.station j)]
      split <;> rfl
    | broadcast =>
      cases hp : x.place with
      | station e => exact hbroadcast
      | broadcast => exact congrArg (· ++ [i]) hbroadcast

theorem ListsSound.attach (h : ListsSound s) {e : EntryId} {E : Entry} (hv : (s.entry e).state = .vacant)
    (hstate : E.state = .ready) (haddress : ∃ a ∈ E.address, addressInRange a = true ∧ s.entryHolding a = none)
    (hfail : E.consecFail = 0#4) (hlimit : E.failLimit ≠ 0#4) (hopen : E.openAction = none)
    (hlist : E.pendingList = []) : ListsSound (s.setEntry e E) := by
  obtain ⟨a, ha, hrange, hfree⟩ := haddress
  have hE : EntrySound E := by
    refine ⟨fun he => ?_, fun _ => ⟨⟨a, ha, hrange⟩, hlimit⟩, ?_, fun _ => ?_, fun he => ?_⟩
    · rw [hstate] at he; cases he
    · rw [hstate, hopen]; exact ⟨nofun, nofun⟩
    · rw [hfail]
      exact Nat.pos_of_ne_zero fun h0 => hlimit (BitVec.eq_of_toNat_eq (by simpa using h0))
    · rw [hstate] at he; cases he
  refine ⟨TableSound.setEntry h.1 e hE (fun _ j _ hused hsame => ?_) (fun x hx hp => ?_),
    SlotsListed.of_same h.2 (fun _ => rfl) fun p => ?_⟩
  · rcases (s.entryHolding_none a).mp hfree j with hj | hj
    · exact hused hj
    · exact hj (hsame.trans ha)
  · rcases TableSound.not_vacant h.1 hx hp with ⟨hst, -⟩ | ⟨hst, -⟩ <;> rw [hv] at hst <;> cases hst
  · cases p with
    | station j =>
      show ((s.setEntry e E).entry j).pendingList = (s.entry j).pendingList
      rw [State.entry_setEntry]
      split
      · next hj => rw [← hj, hlist, (h.1.1 e).1 hv]; rfl
      · rfl
    | broadcast => rfl

theorem EntrySound.vacant : EntrySound Entry.vacant := by decide

/-- A station not on the line is detached. -/
theorem ListsSound.detach (h : ListsSound s) {e : EntryId} (hfree : s.engaged e = false) :
    ListsSound ((s.completeAll e (s.detachOutcome e)).setEntry e Entry.vacant) := by
  obtain ⟨-, ⟨hslot, -⟩, -, -, hcommand, -, -, hother⟩ := s.completeAll_finished e (s.detachOutcome e)
    (fun i _ => s.detachOutcome e i) h.2 (s.detachOutcome_not_delivers e) fun _ _ _ => rfl
  have hx := (s.completeAll_same e (s.detachOutcome e)).exchange
  generalize s.completeAll e (s.detachOutcome e) = u at hslot hcommand hother hx
  have htable : TableSound (s.setEntry e Entry.vacant) := by
    refine TableSound.setEntry h.1 e EntrySound.vacant (fun he => absurd rfl he) fun x hsx hp => ?_
    simp [State.engaged, hsx, hp] at hfree
  have hentries (j : EntryId) : (u.setEntry e Entry.vacant).entry j = (s.setEntry e Entry.vacant).entry j := by
    rw [State.entry_setEntry, State.entry_setEntry]
    split
    · rfl
    · next hj => exact hother j (Ne.symm hj)
  refine ⟨TableSound.of_entries htable (fun i => ?_) (fun i => ?_) (fun i => ?_)
    (fun y hy => ⟨y, hx.symm.trans hy, rfl, rfl, rfl⟩), SlotsListed.finished h.2 hslot ?_ (fun j hj => ?_)
      (by rw [show (u.setEntry e Entry.vacant).command = u.command from rfl, hcommand])⟩
  · rw [hentries]; exact htable.1 i
  · rw [hentries]
  · rw [hentries]
  · rw [State.entry_setEntry, if_pos rfl]; rfl
  · rw [State.entry_setEntry, if_neg (Ne.symm hj), hother j hj]

theorem ListsSound.revive (h : ListsSound s) {e : EntryId} (hf : (s.entry e).state = .failed) :
    ListsSound (s.setEntry e (s.entry e).revived) := by
  obtain ⟨-, h2, h3, -, -⟩ := h.1.1 e
  have hne : (s.entry e).state ≠ .vacant := by rw [hf]; nofun
  obtain ⟨haddress, hlimit⟩ := h2 hne
  have hopen : (s.entry e).openAction.isSome ≠ true := fun ho => by rw [h3.mpr ho] at hf; cases hf
  have hE : EntrySound (s.entry e).revived := by
    refine ⟨nofun, fun _ => ⟨haddress, hlimit⟩, ⟨nofun, fun ho => absurd ho hopen⟩, fun _ => ?_, nofun⟩
    exact Nat.pos_of_ne_zero fun h0 => hlimit (BitVec.eq_of_toNat_eq h0)
  refine ⟨TableSound.setEntry h.1 e hE (fun _ j hj hused ha => hj (h.1.2.1 j e hused hne ha)) (fun x hx hp => ?_),
    SlotsListed.of_same h.2 (fun _ => rfl) fun p => ?_⟩
  · rcases TableSound.not_vacant h.1 hx hp with ⟨hst, -⟩ | ⟨hst, -⟩ <;> rw [hf] at hst <;> cases hst
  · cases p with
    | station j =>
      show ((s.setEntry e _).entry j).pendingList = (s.entry j).pendingList
      rw [State.entry_setEntry]
      split
      · next hj => subst hj; rfl
      · rfl
    | broadcast => rfl

/-- A write of every entry that keeps its station and its failures in a row. -/
theorem ListsSound.mapEntries (h : ListsSound s) (f : Entry → Entry) (hsame : ∀ e, SameStation e (f e))
    (hfail : ∀ e, (f e).consecFail = e.consecFail) (hvacant : f Entry.vacant = Entry.vacant)
    (hentry : ∀ i, t.entry i = f (s.entry i)) (hx : t.exchange = s.exchange) (hcommand : t.command = s.command) :
    ListsSound t := by
  refine ListsSound.of_entries h (fun i => ?_) (fun i => by rw [hentry]; exact hsame _) hx hcommand
  rw [hentry]
  exact EntrySound.same (h.1.1 i) (hsame _) (hfail _) fun hv => by rw [hv, hvacant]

theorem ListsSound.setSlot (h : ListsSound s) {i : SlotId} {x y : Slot} (hx : s.slot i = some x)
    (hp : y.place = x.place) : ListsSound (s.setSlot i (some y)) := by
  refine ListsSound.of_same h (fun _ => rfl) (fun y hy => ⟨y, hy, rfl, rfl, rfl⟩) (fun j => ?_) rfl
  rw [State.slot_setSlot]
  split
  · next hj => rw [← hj, hx]; exact congrArg some hp
  · rfl

theorem ListsSound.update (h : Update d s t) (hs : ListsSound s) : ListsSound t := by
  cases h with
  | exchange x y hx _ hk hp hsl =>
    exact ListsSound.of_same hs (fun _ => rfl) (fun z hz => by cases hz; exact ⟨x, hx, hk, hp, hsl⟩) (fun _ => rfl) rfl
  | close => exact ListsSound.close hs
  | entry e E hE => exact ListsSound.setEntry hs hE
  | complete i o b n g => exact ListsSound.complete hs i o b n g
  | lose e E b x hx hp hE => exact ListsSound.lose hs b hx hp hE
  | openAction e x _ hx hp hk =>
    refine ListsSound.endWith hs hx hp (.inr rfl) ?_ rfl rfl rfl rfl
    exact iff_of_true rfl ((hs.1.2.2 x hx).2 hk)
  | endAction e x _ hx hp => exact ListsSound.endWith hs hx hp (.inl rfl) ⟨nofun, nofun⟩ rfl rfl rfl rfl
  | beginArrival source => rw [s.beginArrival_frame]; exact hs
  | appendBlock h b => exact ListsSound.of_sameButStore hs (s.appendBlock_sameButStore h b)
  | writeByte h k v => exact ListsSound.of_sameButStore hs (s.writeRecordByte_sameButStore h k v)
  | discard =>
    obtain ⟨-, hx, hcommand, -, htable, -⟩ := s.discardArrival_discarded
    exact ListsSound.of_eq hs htable hx hcommand
  | slot i x y hx _ hp => exact ListsSound.setSlot hs hx hp
  | takeSlot _ x v hok hplace => exact ListsSound.takeSlot hs hok hplace
  | attach e E hv hst ha hf hl ho hp => exact ListsSound.attach hs hv hst ha hf hl ho hp
  | detach e hfree => exact ListsSound.detach hs hfree
  | revive e hf => exact ListsSound.revive hs hf
  | clearEntries =>
    exact ListsSound.mapEntries hs Entry.cleared (fun _ => {}) (fun _ => rfl) rfl (fun i => by simp [State.entry]) rfl rfl
  | takeBack e =>
    rcases s.takeBack_cases e with ⟨c, x, -, ht⟩ | ⟨-, ht⟩ <;> rw [ht]
    · have hclosed : ListsSound (s.closePending x) :=
        ListsSound.close (ListsSound.of_sameButStore hs (s.requeueRecord_sameButStore x.slot))
      exact hclosed
    · exact hs
  | allocate h n => exact ListsSound.of_sameButStore hs (s.allocate_sameButStore h n)
  | free h => exact ListsSound.of_sameButStore hs (s.freeRecord_sameButStore h)
  | release h rest =>
    exact ListsSound.of_sameButStore (s := { s with inbound := { s.inbound with list := rest } }) hs
      (State.freeRecord_sameButStore _ h)
  | marks low high =>
    exact ListsSound.of_sameButStore (s := { s with store := { s.store with low := low, high := high } }) hs
      (State.evalMarks_sameButStore _)
  | linger =>
    unfold State.lingerUp
    split <;> exact hs
  | _ => exact hs

/-! ### The ends of a happening, and time -/

theorem GrantedTo.sound {kind : ExchangeKind} {place : Place} {slot : Option SlotId} (h : GrantedTo s kind place slot)
    {x : Exchange} (hk : x.kind = kind) (hp : x.place = place) (hsl : x.slot = slot) : ExchangeSound s x := by
  rw [ExchangeSound, hk, hp, hsl]
  cases h with
  | probe i hdue => exact ⟨.inl ⟨hdue.1, rfl⟩, nofun⟩
  | station _ _ _ hk hr _ _ hs => exact ⟨.inr ⟨hr, hk⟩, hs⟩
  | broadcast _ => exact ⟨rfl, nofun⟩

theorem ListsSound.callChoice (h : ListsSound s) : ListsSound s.callChoice := by
  rcases s.callChoice_granted with ⟨-, e⟩ | ⟨-, -, ⟨-, -, -, e⟩ | ⟨a, kind, place, slot, -, hg, e⟩⟩
  · rw [e]; exact h
  · rw [e, s.endFinishedRound_frame.1]; exact h
  · have hx := State.grant_exchange { s with arbiter := a } kind place slot
    rw [← e] at hx
    have hframe := s.callChoice_frame
    generalize s.callChoice = w at hx hframe
    rw [hframe]
    refine ⟨⟨h.1.1, h.1.2.1, fun x hmem => ?_⟩, h.2⟩
    change w.exchange = some x at hmem
    rw [hx] at hmem
    cases hmem
    exact hg.sound rfl rfl rfl

theorem State.countAttempt_place (s : State) (i : Option SlotId) (j : SlotId) :
    ((s.countAttempt i).slot j).map Slot.place = (s.slot j).map Slot.place := by
  rw [State.countAttempt_slot]
  split
  · rw [Option.map_map]; rfl
  · rfl

theorem ListsSound.reportQuiet (h : ListsSound s) : ListsSound s.reportQuiet := by
  rcases s.reportQuiet_cases with ⟨x, -, hx, -, e⟩ | ⟨x, -, hx, -, e⟩ | ⟨-, e⟩ <;> rw [e]
  · rw [s.enterTransmit_eq x]
    refine ListsSound.of_same h (fun _ => rfl) (fun y hy => by cases hy; exact ⟨x, hx, rfl, rfl, rfl⟩)
      (s.countAttempt_place x.slot) ?_
    rw [s.countAttempt_frame]
  · unfold State.enterAnswer
    split
    · next d hd =>
      have hcount : ListsSound (s.countRefusal x.place d.verdict) := by
        unfold State.countRefusal
        split
        · next i hp =>
          split
          · exact ListsSound.setEntry h { used := .inl (.inr ⟨x, hx, hp⟩) }
          · exact h
        · exact h
      refine ListsSound.of_same hcount (fun _ => rfl) (fun y hy => ?_) (fun _ => rfl) rfl
      cases hy
      refine ⟨x, ?_, rfl, rfl, rfl⟩
      rw [s.countRefusal_frame]
      exact hx
    · exact h
  · exact h

/-- A character time passing leaves an entry but for its timers, and a VACANT one blank. -/
def Entry.ticked (e : Entry) : Entry := { e with backoffTimer := e.backoffTimer.tick, probeTimer := e.probeTimer.tick }

theorem ListsSound.tick (h : ListsSound s) : ListsSound s.tick := by
  cases hr : s.resetHeld with
  | true => rw [show s.tick = s by simp [State.tick, hr]]; exact h
  | false =>
    obtain ⟨hx, -, hcommand, -⟩ := State.tick_frame hr
    exact ListsSound.mapEntries h Entry.ticked (fun _ => {}) (fun _ => rfl) rfl (State.tick_entry hr) hx hcommand

theorem listsSound_reset : ListsSound State.reset := by
  have hentry := State.reset_entry
  have hslot (i : SlotId) : State.reset.slot i = none := by simp [State.slot, State.reset, CommandUnit.reset]
  refine ⟨⟨fun i => ?_, fun i j hi => ?_, fun _ hx => absurd hx (Option.not_mem_none _)⟩, ⟨fun i e => ?_, fun i => ?_,
    fun e => ?_, List.nodup_nil⟩⟩
  · rw [hentry]; exact EntrySound.vacant
  · rw [hentry] at hi; exact absurd rfl hi
  · rw [hentry, hslot]; exact iff_of_false nofun nofun
  · rw [hslot]; exact iff_of_false nofun nofun
  · rw [hentry]; exact List.nodup_nil

theorem listsSound_kept : Kept ListsSound where
  pending _ _ h := h
  update _ _ _ := ListsSound.update
  remove s h := by
    unfold State.removeCompletion
    split <;> exact h
  ends _ _ _ := EndsAs.keeps (fun _ => ListsSound.callChoice) (fun _ => ListsSound.reportQuiet) fun _ _ h => h
  tick _ := ListsSound.tick
  controllerReset s _ :=
    ListsSound.of_same listsSound_reset (fun _ => rfl) (fun _ hy => absurd hy (Option.not_mem_none _)) (fun _ => rfl) rfl
  hardwareReset _ := listsSound_reset
  resetRelease _ h := h

/-- Settles O57: every update keeps each entry sound and each slot in its own list, and an exchange is granted only to a
station that may have it. -/
theorem tableAndListsStaySound : Obligations.TableAndListsStaySound :=
  fun _ _ hs h => listsSound_kept.step h hs

end Sys2Proof.Machine
end

section
set_option Elab.async false
/-! PROOFS. Blocks and records (O58): the blocks, one lemma for a descriptor written; the records' owners, one lemma for each
way a record changes hands; and then each update. -/

namespace Sys2Proof.Machine

open Sys2Proof.Safety

variable {d : Prop} {s t u : State}

/-! ### Blocks -/

/-- One member of a list is written: what it held goes, what it holds now comes. -/
theorem flatMap_set_perm {α β : Type} (f : α → List β) (l : List α) (i : Nat) (hi : i < l.length) (a : α) :
    ((l.set i a).flatMap f ++ f l[i]).Perm (l.flatMap f ++ f a) := by
  induction l generalizing i with
  | nil => simp at hi
  | cons b l ih =>
    cases i with
    | zero =>
      simp only [List.set_cons_zero, List.flatMap_cons, List.getElem_cons_zero]
      calc (f a ++ l.flatMap f ++ f b).Perm (f b ++ (f a ++ l.flatMap f)) := List.perm_append_comm
        _ |>.Perm (f b ++ (l.flatMap f ++ f a)) := (List.perm_append_comm).append_left _
        _ = f b ++ l.flatMap f ++ f a := by rw [List.append_assoc]
    | succ i =>
      simp only [List.set_cons_succ, List.flatMap_cons, List.getElem_cons_succ, List.append_assoc]
      exact (ih i (by simpa using hi)).append_left _

/-- One descriptor is written, and the free list with it: the blocks stay in one place each where the two together hold what
they held. -/
theorem BlocksPartitioned.write (h : BlocksPartitioned s) (g : Handle) (D : Descriptor)
    (hrecords : t.store.descriptors = s.store.descriptors.set g D)
    (hblocks : (t.store.freeList ++ D.chain).Perm (s.store.freeList ++ (s.record g).chain)) : BlocksPartitioned t := by
  have hg : g.val < s.store.descriptors.toList.length := by simp
  have hget : s.store.descriptors.toList[g.val] = s.record g := by simp [State.record]
  have hset := flatMap_set_perm Descriptor.chain s.store.descriptors.toList g.val hg D
  rw [hget] at hset
  refine List.Perm.trans ?_ h
  rw [List.perm_iff_count] at hset hblocks ⊢
  intro b
  have hb := hblocks b
  have hs := hset b
  simp only [State.blocksHeld, hrecords, Vector.toList_set, List.count_append] at hb hs ⊢
  omega

/-- The descriptors that are FREE are blank once one has been written that is blank where it is FREE. -/
theorem FreeRecordsBlank.write (h : FreeRecordsBlank s) (g : Handle) (D : Descriptor)
    (hrecord : ∀ k, t.record k = if g = k then D else s.record k) (hD : D.state = .free → D = Descriptor.free) :
    FreeRecordsBlank t := by
  intro k hk
  rw [hrecord] at hk ⊢
  split
  · next hg => rw [if_pos hg] at hk; exact hD hk
  · next hg => rw [if_neg hg] at hk; exact h k hk

/-- The blocks are partitioned and the FREE descriptors blank. -/
def BlocksSound (s : State) : Prop := BlocksPartitioned s ∧ FreeRecordsBlank s

theorem BlocksSound.of_eq (h : BlocksSound s) (hd : t.store.descriptors = s.store.descriptors)
    (hf : t.store.freeList = s.store.freeList) : BlocksSound t := by
  refine ⟨?_, fun k => ?_⟩
  · rw [BlocksPartitioned, State.blocksHeld, hd, hf]; exact h.1
  · rw [State.record, hd]; exact h.2 k

theorem BlocksSound.write (h : BlocksSound s) (g : Handle) (D : Descriptor)
    (hrecords : t.store.descriptors = s.store.descriptors.set g D)
    (hblocks : (t.store.freeList ++ D.chain).Perm (s.store.freeList ++ (s.record g).chain))
    (hD : D.state = .free → D = Descriptor.free) : BlocksSound t := by
  refine ⟨BlocksPartitioned.write h.1 g D hrecords hblocks, FreeRecordsBlank.write h.2 g D (fun k => ?_) hD⟩
  have : t.record k = (s.setRecord g D).record k := by rw [State.record, hrecords]; rfl
  rw [this, State.record_setRecord]

/-- A descriptor is written that keeps its chain. -/
theorem BlocksSound.setRecord (h : BlocksSound s) (g : Handle) {D : Descriptor} (hchain : D.chain = (s.record g).chain)
    (hD : D.state ≠ .free) : BlocksSound (s.setRecord g D) :=
  h.write g D rfl (by rw [hchain]; exact List.Perm.refl _) fun hf => absurd hf hD

theorem State.takeBlocks_store (s : State) (n : Nat) : (s.takeBlocks n).store.freeList = s.store.freeList.drop n ∧
    (s.takeBlocks n).store.descriptors = s.store.descriptors := by
  rw [State.takeBlocks_eq]
  exact ⟨rfl, rfl⟩

/-- Blocks from the head of the free list join a chain. -/
theorem BlocksSound.takeBlocks (h : BlocksSound s) (g : Handle) (n : Nat) {D : Descriptor}
    (hchain : D.chain = (s.record g).chain ++ s.store.freeList.take n) (hD : D.state ≠ .free)
    (hu : u.store.descriptors = s.store.descriptors.set g D) (hf : u.store.freeList = s.store.freeList) :
    BlocksSound (u.takeBlocks n) := by
  obtain ⟨hlist, hdesc⟩ := u.takeBlocks_store n
  refine h.write g D (hdesc.trans hu) ?_ fun hfree => absurd hfree hD
  rw [hlist, hf, hchain]
  rw [List.perm_iff_count]
  intro b
  have hcount := congrArg (List.count b) (List.take_append_drop n s.store.freeList)
  simp only [List.count_append] at hcount ⊢
  omega

theorem BlocksSound.freeRecord (h : BlocksSound s) (g : Handle) : BlocksSound (s.freeRecord g) := by
  refine h.write g Descriptor.free ?_ ?_ fun _ => rfl
  · rw [State.freeRecord, State.returnBlocks_eq]; rfl
  · rw [State.freeList_freeRecord]
    exact (List.append_nil _).symm ▸ List.Perm.refl _

theorem BlocksSound.settled (h : BlocksSound s) (g : Option Handle) (o : Outcome) : BlocksSound (s.settled g o) := by
  cases g with
  | none => exact h
  | some g =>
    simp only [State.settled, State.settleRecord]
    split
    · exact h.freeRecord g
    · exact h.setRecord g rfl nofun

/-! ### Owners -/

/-- Who a record in a state belongs to (R127, R136, R146). -/
inductive Owner where
  | host
  | slot
  | arrival
  | list
  deriving DecidableEq

/-- The owner of a record by its state. -/
def RecordState.owner : RecordState → Owner
  | .free | .filling | .ready => .host
  | .queued | .sending => .slot
  | .arriving => .arrival
  | .inbound => .list

theorem RecordState.owner_slot {r : RecordState} : r.owner = .slot ↔ r = .queued ∨ r = .sending := by
  cases r <;> simp [RecordState.owner]

theorem RecordState.owner_arrival {r : RecordState} : r.owner = .arrival ↔ r = .arriving := by
  cases r <;> simp [RecordState.owner]

theorem RecordState.owner_list {r : RecordState} : r.owner = .list ↔ r = .inbound := by
  cases r <;> simp [RecordState.owner]

/-- The owner of the record of a handle. -/
def State.owner (s : State) (h : Handle) : Owner := (s.record h).state.owner

/-- The handle of the record that the slot's command names. -/
def State.slotHandle (s : State) (i : SlotId) : Option Handle := (s.slot i).bind Slot.handle

/-- The handle of the arrival. -/
def State.arrivalHandle (s : State) : Option Handle := s.inbound.arrival.bind Arrival.handle

/-- Every record with its owner, in terms of owners. -/
structure Owned (s : State) : Prop where
  slot : ∀ h, s.owner h = .slot ↔ ∃ i, s.slotHandle i = some h
  unique : ∀ i j h, s.slotHandle i = some h → s.slotHandle j = some h → i = j
  arrival : ∀ h, s.owner h = .arrival ↔ s.arrivalHandle = some h
  list : ∀ h, s.owner h = .list ↔ h ∈ s.inbound.list
  nodup : s.inbound.list.Nodup

theorem owned_iff (s : State) : RecordsOwned s ↔ Owned s := by
  constructor
  · rintro ⟨h1, h2, h3, h4, h5, h6⟩
    refine ⟨fun h => ?_, h3, fun h => RecordState.owner_arrival.trans (h4 h),
      fun h => RecordState.owner_list.trans (h5 h).symm, h6⟩
    rw [State.owner, RecordState.owner_slot]
    exact ⟨h2 h, fun ⟨i, hi⟩ => h1 i h hi⟩
  · intro hs
    refine ⟨fun i h hi => RecordState.owner_slot.mp ((hs.slot h).mpr ⟨i, hi⟩),
      fun h hq => (hs.slot h).mp (RecordState.owner_slot.mpr hq), hs.unique,
      fun h => RecordState.owner_arrival.symm.trans (hs.arrival h),
      fun h => (hs.list h).symm.trans RecordState.owner_list, hs.nodup⟩

theorem Owned.of_same (h : Owned s) (howner : ∀ g, t.owner g = s.owner g)
    (hslot : ∀ i, t.slotHandle i = s.slotHandle i) (harrival : t.arrivalHandle = s.arrivalHandle)
    (hlist : t.inbound.list = s.inbound.list) : Owned t := by
  obtain ⟨h1, h2, h3, h4, h5⟩ := h
  constructor
  · simpa only [howner, hslot] using h1
  · simpa only [hslot] using h2
  · simpa only [howner, harrival] using h3
  · simpa only [howner, hlist] using h4
  · rw [hlist]; exact h5

/-- A slot is freed and the record it names, if it names one, goes to the host. -/
theorem Owned.release (h : Owned s) {i : SlotId} {g : Option Handle} (hi : s.slotHandle i = g)
    (howner : ∀ k, t.owner k = if g = some k then .host else s.owner k)
    (hslot : ∀ j, t.slotHandle j = if i = j then none else s.slotHandle j)
    (harrival : t.arrivalHandle = s.arrivalHandle) (hlist : t.inbound.list = s.inbound.list) : Owned t := by
  obtain ⟨h1, h2, h3, h4, h5⟩ := h
  have hgone {k : Handle} (hk : g = some k) : s.owner k = .slot := (h1 k).mpr ⟨i, hi.trans hk⟩
  refine ⟨fun k => ?_, fun a b k ha hb => ?_, fun k => ?_, fun k => ?_, by rw [hlist]; exact h5⟩
  · rw [howner]
    split
    · next hk =>
      refine iff_of_false nofun ?_
      rintro ⟨j, hj⟩
      rw [hslot] at hj
      split at hj
      · cases hj
      · next hij => exact hij (h2 i j k (hi.trans hk) hj)
    · next hk =>
      rw [h1]
      refine exists_congr fun j => ?_
      rw [hslot]
      split
      · next hij => subst hij; rw [hi]; exact iff_of_false hk nofun
      · exact Iff.rfl
  · rw [hslot] at ha hb
    split at ha
    · cases ha
    split at hb
    · cases hb
    exact h2 a b k ha hb
  · rw [howner, harrival, ← h3]
    split
    · next hk => rw [hgone hk]; exact iff_of_false nofun nofun
    · exact Iff.rfl
  · rw [howner, hlist, ← h4]
    split
    · next hk => rw [hgone hk]; exact iff_of_false nofun nofun
    · exact Iff.rfl

/-- A free slot is taken, and the record it names, if it names one, comes from the host. -/
theorem Owned.take (h : Owned s) {i : SlotId} {g : Option Handle} (hi : s.slotHandle i = none)
    (hg : ∀ k, g = some k → s.owner k = .host) (howner : ∀ k, t.owner k = if g = some k then .slot else s.owner k)
    (hslot : ∀ j, t.slotHandle j = if i = j then g else s.slotHandle j)
    (harrival : t.arrivalHandle = s.arrivalHandle) (hlist : t.inbound.list = s.inbound.list) : Owned t := by
  obtain ⟨h1, h2, h3, h4, h5⟩ := h
  have hnew {j : SlotId} {k : Handle} (hk : g = some k) : s.slotHandle j ≠ some k := fun hj => by
    have := (h1 k).mpr ⟨j, hj⟩
    rw [hg k hk] at this
    cases this
  refine ⟨fun k => ?_, fun a b k ha hb => ?_, fun k => ?_, fun k => ?_, by rw [hlist]; exact h5⟩
  · rw [howner]
    split
    · next hk => exact iff_of_true rfl ⟨i, by rw [hslot, if_pos rfl, hk]⟩
    · next hk =>
      rw [h1]
      refine exists_congr fun j => ?_
      rw [hslot]
      split
      · next hij => subst hij; rw [hi]; exact iff_of_false nofun hk
      · exact Iff.rfl
  · rw [hslot] at ha hb
    split at ha <;> split at hb
    · next hia hib => exact hia.symm.trans hib
    · exact absurd hb (hnew ha)
    · exact absurd ha (hnew hb)
    · exact h2 a b k ha hb
  · rw [howner, harrival, ← h3]
    split
    · next hk => rw [hg k hk]; exact iff_of_false nofun nofun
    · exact Iff.rfl
  · rw [howner, hlist, ← h4]
    split
    · next hk => rw [hg k hk]; exact iff_of_false nofun nofun
    · exact Iff.rfl

/-- The arrival ends, and its record, if it has one, goes to the host or to the Inbound List. -/
theorem Owned.endArrival (h : Owned s) {o : Owner} (ho : o = .host ∨ o = .list)
    (howner : ∀ k, t.owner k = if s.arrivalHandle = some k then o else s.owner k)
    (hslot : ∀ j, t.slotHandle j = s.slotHandle j) (harrival : t.arrivalHandle = none)
    (hlist : t.inbound.list = s.inbound.list ++ if o = .list then s.arrivalHandle.toList else []) : Owned t := by
  obtain ⟨h1, h2, h3, h4, h5⟩ := h
  have hno : o ≠ .slot ∧ o ≠ .arrival := by rcases ho with rfl | rfl <;> exact ⟨nofun, nofun⟩
  refine ⟨fun k => ?_, fun a b k => ?_, fun k => ?_, fun k => ?_, ?_⟩
  · simp only [hslot, ← h1]
    rw [howner]
    split
    · next hk => rw [(h3 k).mpr hk]; exact iff_of_false hno.1 nofun
    · exact Iff.rfl
  · simpa only [hslot] using h2 a b k
  · rw [harrival, howner]
    refine iff_of_false ?_ nofun
    split
    · exact hno.2
    · next hk => exact (h3 k).not.mpr hk
  · rw [howner, hlist, List.mem_append, ← h4]
    rcases ho with rfl | rfl
    · split
      · next hk => rw [(h3 k).mpr hk]; exact iff_of_false nofun (by simp)
      · simp
    · split
      · next hk => simp [hk]
      · next hk => simp [hk]
  · rw [hlist]
    rcases ho with rfl | rfl
    · simpa using h5
    · cases hk : s.arrivalHandle with
      | none => simpa [hk] using h5
      | some k =>
        have hnot : k ∉ s.inbound.list := fun hmem => by
          have := (h3 k).mpr hk
          rw [(h4 k).mpr hmem] at this
          cases this
        simpa using List.nodup_append.mpr ⟨h5, List.nodup_singleton k,
          fun a ha b hb hab => hnot (by rw [List.mem_singleton] at hb; rw [← hb, ← hab]; exact ha)⟩

/-- An arrival begins where there is none, and its record, if it has one, comes from the host. -/
theorem Owned.beginArrival (h : Owned s) (hnone : s.arrivalHandle = none) {g : Option Handle}
    (hg : ∀ k, g = some k → s.owner k = .host)
    (howner : ∀ k, t.owner k = if g = some k then .arrival else s.owner k)
    (hslot : ∀ j, t.slotHandle j = s.slotHandle j) (harrival : t.arrivalHandle = g)
    (hlist : t.inbound.list = s.inbound.list) : Owned t := by
  obtain ⟨h1, h2, h3, h4, h5⟩ := h
  refine ⟨fun k => ?_, fun a b k => ?_, fun k => ?_, fun k => ?_, by rw [hlist]; exact h5⟩
  · simp only [hslot, ← h1]
    rw [howner]
    split
    · next hk => rw [hg k hk]; exact iff_of_false nofun nofun
    · exact Iff.rfl
  · simpa only [hslot] using h2 a b k
  · rw [harrival, howner]
    split
    · next hk => exact iff_of_true rfl hk
    · next hk =>
      refine iff_of_false ?_ hk
      rw [h3, hnone]
      nofun
  · rw [howner, hlist, ← h4]
    split
    · next hk => rw [hg k hk]; exact iff_of_false nofun nofun
    · exact Iff.rfl

/-- The head of the Inbound List is released to the host. -/
theorem Owned.leaveInbound (h : Owned s) {g : Handle} {rest : List Handle} (hl : s.inbound.list = g :: rest)
    (howner : ∀ k, t.owner k = if g = k then .host else s.owner k)
    (hslot : ∀ j, t.slotHandle j = s.slotHandle j) (harrival : t.arrivalHandle = s.arrivalHandle)
    (hlist : t.inbound.list = rest) : Owned t := by
  obtain ⟨h1, h2, h3, h4, h5⟩ := h
  have hg : s.owner g = .list := (h4 g).mpr (by rw [hl]; exact List.mem_cons_self)
  rw [hl] at h5
  obtain ⟨hnot, hrest⟩ := List.nodup_cons.mp h5
  refine ⟨fun k => ?_, fun a b k => ?_, fun k => ?_, fun k => ?_, by rw [hlist]; exact hrest⟩
  · simp only [hslot, ← h1]
    rw [howner]
    split
    · next hk => subst hk; rw [hg]; exact iff_of_false nofun nofun
    · exact Iff.rfl
  · simpa only [hslot] using h2 a b k
  · rw [harrival, howner, ← h3]
    split
    · next hk => subst hk; rw [hg]; exact iff_of_false nofun nofun
    · exact Iff.rfl
  · rw [howner, hlist]
    split
    · next hk => subst hk; exact iff_of_false nofun hnot
    · next hk =>
      rw [h4, hl, List.mem_cons]
      exact or_iff_right (Ne.symm hk)

/-! ### The updates -/

/-- O58's invariant in terms of owners. -/
def Stored (s : State) : Prop := BlocksSound s ∧ Owned s

theorem storeSound_iff (s : State) : StoreSound s ↔ Stored s :=
  ⟨fun ⟨h1, h2, h3⟩ => ⟨⟨h1, h2⟩, (owned_iff s).mp h3⟩, fun ⟨⟨h1, h2⟩, h3⟩ => ⟨h1, h2, (owned_iff s).mpr h3⟩⟩

theorem Stored.of_eq (h : Stored s) (hstore : t.store = s.store) (hslot : ∀ i, t.slotHandle i = s.slotHandle i)
    (hinbound : t.inbound = s.inbound) : Stored t :=
  ⟨h.1.of_eq (by rw [hstore]) (by rw [hstore]),
    h.2.of_same (fun g => by rw [State.owner, State.owner, State.record, hstore]; rfl) hslot
      (by rw [State.arrivalHandle, hinbound]; rfl) (by rw [hinbound])⟩

theorem State.slotHandle_of_slots (h : t.command.slots = s.command.slots) (i : SlotId) :
    t.slotHandle i = s.slotHandle i := by
  rw [State.slotHandle, State.slotHandle, State.slot, State.slot, h]

theorem Stored.of_store (h : Stored s) (hstore : t.store = s.store) (hslots : t.command.slots = s.command.slots)
    (hinbound : t.inbound = s.inbound) : Stored t := h.of_eq hstore (State.slotHandle_of_slots hslots) hinbound

/-- A record changes within its owner's hands. -/
theorem Stored.moveRecord (h : Stored s) (g : Handle) {r : RecordState} (hr : r.owner = s.owner g) (hfree : r ≠ .free) :
    Stored (s.moveRecord g r) := by
  refine ⟨h.1.setRecord g rfl hfree, h.2.of_same (fun k => ?_) (fun _ => rfl) rfl rfl⟩
  rw [State.owner, State.record_moveRecord]
  split
  · next hk => rw [← hk]; exact hr
  · rfl

/-- A descriptor is written that keeps its state and its chain. -/
theorem Stored.setRecord (h : Stored s) (g : Handle) {D : Descriptor} (hstate : D.state = (s.record g).state)
    (hchain : D.chain = (s.record g).chain) (hfree : D.state ≠ .free) : Stored (s.setRecord g D) := by
  refine ⟨h.1.setRecord g hchain hfree, h.2.of_same (fun k => ?_) (fun _ => rfl) rfl rfl⟩
  rw [State.owner, State.record_setRecord]
  split
  · next hk => rw [hstate, hk]; rfl
  · rfl

theorem State.owner_freeRecord (s : State) (g k : Handle) :
    (s.freeRecord g).owner k = if g = k then .host else s.owner k := by
  rw [State.owner, State.record_freeRecord]
  split <;> rfl

/-- A record of the host's is freed. -/
theorem Stored.freeRecord (h : Stored s) {g : Handle} (hg : s.owner g = .host) : Stored (s.freeRecord g) := by
  have hsame := s.freeRecord_sameButStore g
  refine ⟨h.1.freeRecord g, h.2.of_same (fun k => ?_) (State.slotHandle_of_slots (by rw [hsame.command]))
    (by rw [State.arrivalHandle, hsame.inbound]; rfl) (by rw [hsame.inbound])⟩
  rw [State.owner_freeRecord]
  split
  · next hk => rw [← hk, hg]
  · rfl

theorem State.owner_settled (s : State) (g : Option Handle) (o : Outcome) (k : Handle) :
    (s.settled g o).owner k = if g = some k then .host else s.owner k := by
  cases g with
  | none => rfl
  | some g =>
    simp only [State.settled, State.settleRecord, Option.some.injEq]
    split
    · exact s.owner_freeRecord g k
    · rw [State.owner, State.record_readyRecord]
      split <;> rfl

theorem Stored.complete (h : Stored s) (i : SlotId) (o : Outcome) (b : Byte) (n : Nat) (g : Option Handle) :
    Stored (s.complete i o b n g) := by
  cases hx : s.slot i with
  | none => rw [s.complete_none i o b n g hx]; exact h
  | some x =>
    rw [s.complete_some i o b n g x hx]
    generalize x.completion o b n (s.completedHandle x.handle o g) = c
    have hsame := s.settled_sameButStore x.handle o
    have howner := s.owner_settled x.handle o
    have hblocks := h.1.settled x.handle o
    generalize s.settled x.handle o = u at hsame howner hblocks
    have hstore := u.post_store i x.place c
    have hin : (u.post i x.place c).inbound = s.inbound := (u.post_same i x.place c).inbound.trans hsame.inbound
    refine ⟨hblocks.of_eq (by rw [hstore]) (by rw [hstore]), h.2.release (i := i) (g := x.handle) ?_ (fun k => ?_)
      (fun j => ?_) (by rw [State.arrivalHandle, hin]; rfl) (by rw [hin])⟩
    · rw [State.slotHandle, hx]; rfl
    · rw [State.owner, State.post_record]
      exact howner k
    · rw [State.slotHandle, State.post_slot]
      split
      · rfl
      · exact State.slotHandle_of_slots (by rw [hsame.command]) j

theorem Stored.completeAll (h : Stored s) (e : EntryId) (f : SlotId → Outcome × Byte × Nat) :
    Stored (s.completeAll e f) :=
  State.foldl_complete_keeps (fun _ i o b n g hs => hs.complete i o b n g) _ f s h

theorem Stored.beginArrival (h : Stored s) (hnone : s.inbound.arrival = none) (source : Byte) :
    Stored (s.beginArrival source) := by
  have harr : s.arrivalHandle = none := by rw [State.arrivalHandle, hnone]; rfl
  rcases s.beginArrival_cases source with ⟨g, hg, e⟩ | ⟨-, e⟩ <;> rw [e]
  · have hfree := ((s.lowestFreeHandle_some g).mp hg).1
    have hblank : (s.record g).chain = [] := by rw [h.1.2 g hfree]; rfl
    refine ⟨(h.1.setRecord g (D := { state := .arriving, length := 0, chain := [], origin := source, keep := false })
      hblank.symm nofun).of_eq rfl rfl, h.2.beginArrival (g := some g) harr (fun k hk => ?_) (fun k => ?_)
      (fun _ => rfl) rfl rfl⟩
    · rw [← Option.some.inj hk, State.owner, hfree]; rfl
    · show (State.record (s.setRecord g _) k).state.owner = _
      rw [State.record_setRecord]
      simp only [Option.some.injEq]
      split <;> rfl
  · exact ⟨h.1.of_eq rfl rfl, h.2.beginArrival (g := none) harr nofun (fun _ => rfl) (fun _ => rfl) rfl rfl⟩

theorem State.appendBlock_store (s : State) (g : Handle) (b : Block) :
    (s.appendBlock g b).store.descriptors =
      s.store.descriptors.set g { s.record g with chain := (s.record g).chain ++ [b] } := by
  rw [State.appendBlock, (State.takeBlocks_store _ 1).2]
  rfl

theorem Stored.appendBlock (h : Stored s) {g : Handle} {b : Block} {rest : List Block} (hg : s.Arriving g)
    (hfree : s.store.freeList = b :: rest) : Stored (s.appendBlock g b) := by
  have hstate : (s.record g).state = .arriving := RecordState.owner_arrival.mp ((h.2.arrival g).mpr hg)
  have hsame := s.appendBlock_sameButStore g b
  refine ⟨h.1.takeBlocks g 1 (D := { s.record g with chain := (s.record g).chain ++ [b] }) (by rw [hfree]; rfl)
      (by rw [hstate]; nofun) rfl rfl,
    h.2.of_same (fun k => ?_) (State.slotHandle_of_slots (by rw [hsame.command]))
      (by rw [State.arrivalHandle, hsame.inbound]; rfl) (by rw [hsame.inbound])⟩
  rw [State.owner, State.record, State.appendBlock_store]
  show ((s.setRecord g _).record k).state.owner = _
  rw [State.record_setRecord]
  split
  · next hk => rw [← hk]; rfl
  · rfl

theorem Stored.acceptArrival (h : Stored s) {g : Handle} (hg : s.Arriving g) (n : Nat) :
    Stored (s.acceptArrival g n) := by
  have hstate : (s.record g).state = .arriving := RecordState.owner_arrival.mp ((h.2.arrival g).mpr hg)
  have harr : s.arrivalHandle = some g := hg
  refine ⟨(h.1.setRecord g (D := { s.record g with state := .inbound, length := n }) rfl nofun).of_eq rfl rfl,
    h.2.endArrival (.inr rfl) (fun k => ?_) (fun _ => rfl) rfl ?_⟩
  · show ((s.setRecord g _).record k).state.owner = _
    rw [State.record_setRecord, harr]
    simp only [Option.some.injEq]
    split <;> rfl
  · rw [harr]; rfl

theorem Stored.discardArrival (h : Stored s) : Stored s.discardArrival := by
  rcases s.discardArrival_cases with ⟨-, e⟩ | ⟨a, ha, hno, e⟩ | ⟨a, g, ha, hg, e⟩ <;> rw [e]
  · exact h
  · have harr : s.arrivalHandle = none := by rw [State.arrivalHandle, ha]; exact hno
    exact ⟨h.1.of_eq rfl rfl, h.2.endArrival (.inl rfl) (fun k => by rw [harr]; rfl) (fun _ => rfl) rfl (by simp)⟩
  · have harr : s.arrivalHandle = some g := by rw [State.arrivalHandle, ha]; exact hg
    have hsame := s.freeRecord_sameButStore g
    refine ⟨(h.1.freeRecord g).of_eq rfl rfl, h.2.endArrival (.inl rfl) (fun k => ?_) (fun j => ?_) rfl ?_⟩
    · rw [harr]
      simp only [Option.some.injEq]
      exact s.owner_freeRecord g k
    · exact State.slotHandle_of_slots (by rw [← hsame.command]; rfl) j
    · show (s.freeRecord g).inbound.list = _
      rw [hsame.inbound]
      simp

theorem Stored.setSlot (h : Stored s) {i : SlotId} {x y : Slot} (hx : s.slot i = some x) (hh : y.handle = x.handle) :
    Stored (s.setSlot i (some y)) := by
  refine h.of_eq rfl (fun j => ?_) rfl
  rw [State.slotHandle, State.slot_setSlot]
  split
  · next hj => rw [State.slotHandle, ← hj, hx]; exact hh
  · rfl

theorem Stored.takeSlot (h : Stored s) {x : Slot} {v : BitVec 6} (hok : s.takeSlot x = .ok (t, v))
    (hready : ∀ g, x.handle = some g → (s.record g).state = .ready) : Stored t := by
  obtain ⟨i, -, hfree, -, rfl⟩ := State.takeSlot_taken hok
  have hnone : s.slotHandle i = none := by
    rw [State.slotHandle, show s.slot i = none by simpa using ((s.lowestFreeSlot_some i).mp hfree).1]
    rfl
  have hsame := State.queueRecord_sameButStore (s.setSlot i (some x)) x.handle x.keep
  have hblocks : BlocksSound ((s.setSlot i (some x)).queueRecord x.handle x.keep) := by
    cases x.handle with
    | none => exact h.1
    | some g => exact h.1.setRecord g rfl nofun
  have howner (k : Handle) : ((s.setSlot i (some x)).queueRecord x.handle x.keep).owner k =
      if x.handle = some k then .slot else s.owner k := by
    cases x.handle with
    | none => rfl
    | some g =>
      show ((s.setRecord g _).record k).state.owner = _
      rw [State.record_setRecord]
      simp only [Option.some.injEq]
      split <;> rfl
  rw [State.joinList_frame]
  refine ⟨hblocks.of_eq rfl rfl, h.2.take (i := i) (g := x.handle) hnone (fun k hk => ?_) howner (fun j => ?_) ?_ ?_⟩
  · rw [State.owner, hready k hk]; rfl
  · rw [State.slotHandle_of_slots (s := s.setSlot i (some x)) (by rw [← hsame.command]) j, State.slotHandle,
      State.slot_setSlot]
    split <;> rfl
  · exact congrArg (fun n : InboundPath => n.arrival.bind Arrival.handle) hsame.inbound
  · exact congrArg InboundPath.list hsame.inbound

theorem Stored.requeueRecord (h : Stored s) (i : Option SlotId) : Stored (s.requeueRecord i) := by
  unfold State.requeueRecord
  split
  · split
    · next hs => exact h.moveRecord _ (by rw [State.owner, hs]; rfl) nofun
    · exact h
  · exact h

theorem Stored.allocate (h : Stored s) {g : Handle} (hfree : (s.record g).state = .free) (n : Nat) :
    Stored (s.allocate g n) := by
  have hsame := s.allocate_sameButStore g n
  have hblank : (s.record g).chain = [] := by rw [h.1.2 g hfree]; rfl
  refine ⟨h.1.takeBlocks g (blocksFor n) 
      (D := { state := .filling, length := n, chain := s.store.freeList.take (blocksFor n), origin := 0#8, keep := false })
      (by rw [hblank]; rfl) nofun rfl rfl,
    h.2.of_same (fun k => ?_) (State.slotHandle_of_slots (by rw [hsame.command]))
      (by rw [State.arrivalHandle, hsame.inbound]; rfl) (by rw [hsame.inbound])⟩
  rw [State.owner, State.record_allocate]
  split
  · next hk => rw [State.owner, ← hk, hfree]; rfl
  · rfl

theorem Stored.release (h : Stored s) {g : Handle} {rest : List Handle} (hl : s.inbound.list = g :: rest) :
    Stored (State.freeRecord { s with inbound := { s.inbound with list := rest } } g) := by
  have hsame := State.freeRecord_sameButStore { s with inbound := { s.inbound with list := rest } } g
  refine ⟨BlocksSound.freeRecord (s := { s with inbound := { s.inbound with list := rest } }) h.1 g,
    h.2.leaveInbound hl (fun k => State.owner_freeRecord _ g k) (State.slotHandle_of_slots (by rw [hsame.command]))
      (by rw [State.arrivalHandle, hsame.inbound]; rfl) (by rw [hsame.inbound])⟩

theorem State.evalMarks_store (s : State) : s.evalMarks.store = { s.store with restraint := s.evalMarks.store.restraint } := by
  rw [State.evalMarks_eq, State.setRestraint_eq]

theorem Stored.update (h : Update d s t) (hs : Stored s) : Stored t := by
  have harriving {g : Handle} (hg : s.Arriving g) : (s.record g).state = .arriving :=
    RecordState.owner_arrival.mp ((hs.2.arrival g).mpr hg)
  cases h with
  | complete i o b n g => exact hs.complete i o b n g
  | lose e E b x =>
    exact (Stored.completeAll (s := s.setEntry e E) (hs.of_store rfl rfl rfl) e _).of_store rfl rfl rfl
  | beginArrival source _ hnone => exact hs.beginArrival hnone source
  | arrival a b _ ha hb =>
    refine ⟨hs.1, hs.2.of_same (fun _ => rfl) (fun _ => rfl) ?_ rfl⟩
    rw [State.arrivalHandle, State.arrivalHandle, ha]
    exact hb
  | appendBlock g b rest _ hg hfree => exact hs.appendBlock hg hfree
  | lengthen g _ hg => exact hs.setRecord g rfl rfl (by rw [harriving hg]; nofun)
  | writeByte g k v =>
    unfold State.writeRecordByte
    split
    · exact ⟨hs.1.of_eq rfl rfl, hs.2.of_same (fun _ => rfl) (fun _ => rfl) rfl rfl⟩
    · exact hs
  | accept g n _ hg => exact hs.acceptArrival hg n
  | discard => exact hs.discardArrival
  | requeue g hg => exact hs.moveRecord g (by rw [State.owner, hg]; rfl) nofun
  | slot i x y hx _ _ hh => exact hs.setSlot hx hh
  | takeSlot _ x v hok _ hready => exact hs.takeSlot hok hready
  | detach e => exact (hs.completeAll e (s.detachOutcome e)).of_store rfl rfl rfl
  | takeBack e =>
    rcases s.takeBack_cases e with ⟨c, x, -, ht⟩ | ⟨-, ht⟩ <;> rw [ht]
    · exact (hs.requeueRecord x.slot).of_store rfl rfl rfl
    · exact hs
  | allocate g n hfree => exact hs.allocate hfree n
  | sealed g hg => exact hs.moveRecord g (by rw [State.owner, hg]; rfl) nofun
  | free g hg => exact hs.freeRecord (by rw [State.owner]; rcases hg with hg | hg <;> rw [hg] <;> rfl)
  | release g rest hl => exact hs.release hl
  | marks low high =>
    have hsame := State.evalMarks_sameButStore { s with store := { s.store with low := low, high := high } }
    have hstore := State.evalMarks_store { s with store := { s.store with low := low, high := high } }
    refine ⟨hs.1.of_eq (by rw [hstore]) (by rw [hstore]), hs.2.of_same (fun g => ?_)
      (State.slotHandle_of_slots (by rw [hsame.command])) (by rw [State.arrivalHandle, hsame.inbound]; rfl)
      (by rw [hsame.inbound])⟩
    rw [State.owner, State.record, hstore]
    rfl
  | linger =>
    unfold State.lingerUp
    split <;> exact hs.of_store rfl rfl rfl
  | _ => exact hs.of_store rfl rfl rfl

/-! ### The ends of a happening -/

theorem Stored.grant (h : Stored s) (kind : ExchangeKind) (place : Place) (slot : Option SlotId) :
    Stored (s.grant kind place slot) := by
  rcases s.grant_cases kind place slot with ⟨i, x, g, -, -, -, hq, e⟩ | ⟨-, e⟩ <;> rw [e]
  · exact (h.moveRecord (r := .sending) g (by rw [State.owner, hq]; rfl) nofun).of_store rfl rfl rfl
  · exact h.of_store rfl rfl rfl

theorem Stored.callChoice (h : Stored s) : Stored s.callChoice := by
  rcases s.callChoice_granted with ⟨-, e⟩ | ⟨-, -, ⟨-, -, -, e⟩ | ⟨a, kind, place, slot, -, -, e⟩⟩ <;> rw [e]
  · exact h
  · rw [s.endFinishedRound_frame.1]; exact h.of_store rfl rfl rfl
  · exact Stored.grant (s := { s with arbiter := a }) (h.of_store rfl rfl rfl) kind place slot

theorem State.countAttempt_slotHandle (s : State) (i : Option SlotId) (j : SlotId) :
    (s.countAttempt i).slotHandle j = s.slotHandle j := by
  rw [State.slotHandle, State.countAttempt_slot, State.slotHandle]
  split
  · cases s.slot j <;> rfl
  · rfl

theorem Stored.reportQuiet (h : Stored s) : Stored s.reportQuiet := by
  rcases s.reportQuiet_cases with ⟨x, -, -, -, e⟩ | ⟨x, -, -, -, e⟩ | ⟨-, e⟩ <;> rw [e]
  · rw [s.enterTransmit_eq x]
    exact h.of_eq rfl (s.countAttempt_slotHandle x.slot) rfl
  · unfold State.enterAnswer
    split
    · rw [s.countRefusal_frame]
      exact h.of_store rfl rfl rfl
    · exact h
  · exact h

theorem stored_reset : Stored State.reset := by
  have hrecord (g : Handle) : State.reset.record g = Descriptor.free := State.reset_record g
  have howner (g : Handle) : State.reset.owner g = .host := by rw [State.owner, hrecord]; rfl
  have hslot (i : SlotId) : State.reset.slotHandle i = none := by
    simp [State.slotHandle, State.slot, State.reset, CommandUnit.reset]
  refine ⟨⟨?_, fun g _ => hrecord g⟩, fun g => ?_, fun i j g hi => ?_, fun g => ?_, fun g => ?_, List.nodup_nil⟩
  · have hchains : State.reset.store.descriptors.toList.flatMap Descriptor.chain = [] := by
      simp [State.reset, RecordStore.reset, Descriptor.free]
    rw [BlocksPartitioned, State.blocksHeld, hchains, State.reset_freeList, List.append_nil]
  · rw [howner]
    exact iff_of_false nofun fun ⟨i, hi⟩ => by rw [hslot] at hi; cases hi
  · rw [hslot] at hi; cases hi
  · rw [howner]; exact iff_of_false nofun nofun
  · rw [howner]; exact iff_of_false nofun nofun

theorem stored_kept : Kept Stored where
  pending _ _ h := h.of_store rfl rfl rfl
  update _ _ _ := Stored.update
  remove s h := by
    unfold State.removeCompletion
    split <;> exact h.of_store rfl rfl rfl
  ends _ _ _ := EndsAs.keeps (fun _ => Stored.callChoice) (fun _ => Stored.reportQuiet) fun _ _ h => h.of_store rfl rfl rfl
  tick s h := by
    unfold State.tick
    split
    · exact h
    · exact h.of_store rfl rfl rfl
  controllerReset s _ := ⟨stored_reset.1.of_eq (by simp only [State.accept, State.controllerReset, State.reset])
    (by simp only [State.accept, State.controllerReset, State.reset]), stored_reset.2.of_same (fun _ => rfl) (fun _ => rfl) rfl rfl⟩
  hardwareReset _ := stored_reset.of_store rfl rfl rfl
  resetRelease _ h := h.of_store rfl rfl rfl

/-- Settles O58: every update writes one descriptor and moves the blocks it needs, and hands a record from one owner to one
other. -/
theorem blocksAndRecordsStayOwned : Obligations.BlocksAndRecordsStayOwned :=
  fun s t hs h => (storeSound_iff t).mpr (stored_kept.step h ((storeSound_iff s).mp hs))

end Sys2Proof.Machine
end

section
set_option Elab.async false
/-! PROOFS. An arrival and its reply (O59). The invariant ties an arrival to an exchange in RECEIVE_REPLY, and ties a frame
of destination REPLY that has no arrival yet to nothing; so a state that no run reaches, which follows a reply's frame for an
exchange still in GUARD, meets it, and the header of a DATA begins an arrival for that exchange. -/

namespace Sys2Proof.Machine

open Sys2Proof.Safety

/-- A POLL of the station in entry 0 that still waits in GUARD. -/
def guardPoll : Exchange := granted .poll (.station 0) none

/-- A reply's frame from the station at address 5, whose CTRL comes next. -/
def headedReply : InFrame := ((InFrame.begin .reply false).hold 0#8).hold 5#8

/-- The station at address 5 READY in entry 0. -/
def polledStation : Entry :=
  { Entry.vacant with state := .ready, address := some 5#8, failLimit := 3#4, inboundLimit := 480 }

/-- A DATA's CTRL of the sequence bit that the station's entry expects. -/
def dataCtrl : Instr := .characterReceived (ctrlByte .data false) (evenParity (ctrlByte .data false)) true

/-- Such a reply followed for an exchange that waits in GUARD. -/
def replyInGuard : State :=
  { State.reset.setEntry 0 polledStation with
    exchange := some guardPoll
    line := { LineEngine.reset with rx := .frame headedReply }
    pending := [dataCtrl] }

/-- The state has an arrival, and an exchange that receives no reply. -/
def State.arrivalInGuard (s : State) : Bool :=
  s.inbound.arrival.isSome && s.exchange.any fun x => x.phase == .guard

/-- The next state has an arrival, and an exchange that receives no reply. -/
def nextArrivalInGuard (s : State) : Bool :=
  match step s with
  | .next t => t.arrivalInGuard
  | .fault _ | .refused _ => false

theorem nextArrivalInGuard_iff (s : State) :
    nextArrivalInGuard s = true ↔ ∃ t, step s = .next t ∧ t.arrivalInGuard = true := by
  unfold nextArrivalInGuard
  cases step s <;> simp

theorem State.arrivalInGuard_not_follows {s : State} (h : s.arrivalInGuard = true) : ¬ ArrivalFollowsReply s := by
  intro hs
  simp only [State.arrivalInGuard, Bool.and_eq_true, Option.isSome_iff_exists, Option.any_eq_true, beq_iff_eq] at h
  obtain ⟨⟨a, ha⟩, x, hx, hguard⟩ := h
  obtain ⟨y, hy, f, -, -, hreceives, -⟩ := hs a ha
  obtain rfl : x = y := Option.some.inj (hx.symm.trans hy)
  exact absurd (hguard.symm.trans hreceives) nofun

theorem replyInGuard_recordsSound : RecordsSound replyInGuard := by
  have hstore : StoreSound replyInGuard := (storeSound_iff _).mpr (stored_reset.of_store rfl rfl rfl)
  have hrecord (g : Handle) : replyInGuard.record g = Descriptor.free := State.reset_record g
  refine ⟨hstore, fun g => by rw [hrecord]; decide, fun f hf => ?_, fun a ha => absurd ha (Option.not_mem_none a),
    by decide +kernel⟩
  rw [← Receiver.frame.inj hf]
  decide

theorem replyInGuard_listsSound : ListsSound replyInGuard := by
  have htable : TableSound (State.reset.setEntry 0 polledStation) :=
    TableSound.setEntry listsSound_reset.1 0 (by decide) (fun _ j _ hj => absurd (by rw [State.reset_entry]; rfl) hj)
      fun x hx => absurd hx (Option.not_mem_none x)
  have hlist (p : Place) : State.listOf replyInGuard p = State.listOf State.reset p := by
    cases p with
    | broadcast => rfl
    | station e =>
      show ((State.reset.setEntry 0 polledStation).entry e).pendingList = (State.reset.entry e).pendingList
      rw [State.entry_setEntry, State.reset_entry]
      split <;> rfl
  have hlists : SlotsListed replyInGuard := SlotsListed.of_same listsSound_reset.2 (fun _ => rfl) hlist
  refine ⟨⟨htable.1, htable.2.1, fun x hx => ?_⟩, hlists⟩
  obtain rfl : guardPoll = x := Option.some.inj hx
  exact ⟨.inr (by decide +kernel), nofun⟩

/-- Refutes O59: in `replyInGuard` the premises hold and the arrival that its CTRL begins follows an exchange in GUARD. -/
theorem not_arrivalsStoreWhatIsReleased : ¬ Obligations.ArrivalsStoreWhatIsReleased := by
  intro h
  obtain ⟨t, hstep, ht⟩ := (nextArrivalInGuard_iff replyInGuard).mp (by decide +kernel)
  obtain ⟨-, -, -, hfollows, -⟩ := h replyInGuard t ⟨replyInGuard_recordsSound, replyInGuard_listsSound⟩ hstep
  exact State.arrivalInGuard_not_follows ht hfollows

end Sys2Proof.Machine
end

section
set_option Elab.async false
/-! PROOFS. The queue of commands, time and the resets (O1 to O4, O6), the remaining happenings of the line and the timers
(O53), and the invariants at reset (O60). -/

namespace Sys2Proof.Machine

open Sys2Proof.Safety

variable {s t u : State} {c : Instr}

/-! ### Every command has a next state -/

/-- The outcome is a next state, the state itself while RESET is low. -/
def Runs (o : Host.Outcome State Fault Refusal) (s : State) : Prop :=
  (∃ t, o = .next t) ∧ (s.resetHeld = true → o = .next s)

theorem happening_runs (f : State → State) (s : State) : Runs (happening f s) s := by
  rcases happening_cases (s := s) f with ⟨h, e⟩ | ⟨h, e⟩ <;> rw [e]
  · exact ⟨⟨_, rfl⟩, fun _ => rfl⟩
  · exact ⟨⟨_, rfl⟩, fun k => by rw [h] at k; cases k⟩

theorem endOfWait_runs (f : State → State) (s : State) : Runs (endOfWait f s) s := by
  rcases endOfWait_cases (s := s) f with ⟨h, e⟩ | ⟨h, -, e⟩ | ⟨h, -, e⟩ <;> rw [e]
  · exact ⟨⟨_, rfl⟩, fun _ => rfl⟩
  all_goals exact ⟨⟨_, rfl⟩, fun k => by rw [h] at k; cases k⟩

theorem takeCommand_runs (f : State → Except Reason (State × BitVec 6)) (s : State) : Runs (takeCommand f s) s := by
  rcases takeCommand_cases (s := s) f with ⟨h, e⟩ | ⟨_, h, -, e⟩ | ⟨_, _, h, -, e⟩ <;> rw [e]
  · exact ⟨⟨_, rfl⟩, fun _ => rfl⟩
  all_goals exact ⟨⟨_, rfl⟩, fun k => by rw [h] at k; cases k⟩

theorem execLineAbort_runs (s : State) : Runs (execLineAbort s) s := by
  rcases execLineAbort_cases (s := s) with ⟨h, e⟩ | ⟨h, -, e⟩ | ⟨h, -, e⟩ <;> rw [e]
  · exact ⟨⟨_, rfl⟩, fun _ => rfl⟩
  all_goals exact ⟨⟨_, rfl⟩, fun k => by rw [h] at k; cases k⟩

theorem execHardwareReset_runs (s : State) : Runs (execHardwareReset s) s := by
  unfold execHardwareReset
  split
  · exact ⟨⟨_, rfl⟩, fun _ => rfl⟩
  · next h => exact ⟨⟨_, rfl⟩, fun k => absurd k h⟩

/-- A well-formed command other than RESET_RELEASE runs. -/
theorem exec_runs (hc : c.wellFormed = true) (hr : c ≠ .resetRelease) (s : State) : Runs (exec c s) s := by
  cases c with
  | send | poll | action | broadcast | attach | detach | pause | resume | revive | flush | stationQuery | lineQuery
  | clearCounters | alloc | sealRecord | free | release | setMarks | controllerReset => exact takeCommand_runs _ s
  | badCodeCommand code =>
    have hname : namesCommand code = false := by simpa [Instr.wellFormed] using hc
    show Runs (execBadCodeCommand code s) s
    rw [execBadCodeCommand, hname]
    exact takeCommand_runs _ s
  | otherRegisterWrite o v =>
    show Runs (execOtherRegisterWrite o v s) s
    rw [execOtherRegisterWrite, if_pos (show (isParamOffset o || isIgnoredOffset o) = true from hc)]
    exact happening_runs _ s
  | lineAbort => exact execLineAbort_runs s
  | hardwareReset => exact execHardwareReset_runs s
  | resetRelease => exact absurd rfl hr
  | replyTimerExpiry => exact endOfWait_runs State.replyTimeUp s
  | gapTimerExpiry => exact endOfWait_runs State.gapTimeUp s
  | runStart v => exact happening_runs (·.writeControl (v ++ 1#1)) s
  | runStop v => exact happening_runs (·.writeControl (v ++ 0#1)) s
  | causeEnableWrite v => exact happening_runs (·.writeCauseEnable v) s
  | causeAck v => exact happening_runs (·.acknowledge v) s
  | cqInfoWrite _ => exact happening_runs State.removeCompletion s
  | winSelectWrite v => exact happening_runs (fun t => { t with host := { t.host with winSelect := lowByte v } }) s
  | winOffsetWrite v => exact happening_runs (fun t => { t with host := { t.host with winOffset := v.extractLsb' 1 15 ++ 0#1 } }) s
  | winDataRead => exact happening_runs State.readWindow s
  | winDataWrite v => exact happening_runs (·.writeWindow v) s
  | rateWrite v => exact happening_runs (·.writeRate v) s
  | lineTimesWrite v => exact happening_runs (·.writeLineTimes v) s
  | replyTimeWrite v => exact happening_runs (·.writeReplyTime v) s
  | pollTimeWrite v => exact happening_runs (·.writePollTime v) s
  | probeSetupWrite v => exact happening_runs (·.writeProbeSetup v) s
  | backoffWrite v => exact happening_runs (·.writeBackoff v) s
  | coalesceWrite v => exact happening_runs (·.writeCoalesce v) s
  | lostSummaryWrite v => exact happening_runs (·.writeLostSummary v) s
  | characterReceived v p b => exact happening_runs (·.receive v p b) s
  | inputReturnAfterStopError => exact happening_runs State.inputReturn s
  | transmitCharacter => exact happening_runs State.transmitNext s
  | frameSent => exact happening_runs State.finishSending s
  | guardTimerExpiry => exact happening_runs (fun t => { t with line := { t.line with guardTimer := 0#4 } }) s
  | echoDeadline => exact happening_runs State.echoOverdue s
  | drainEnd => exact happening_runs State.drainOver s
  | pollPeriodExpiry => exact happening_runs State.pollPeriodUp s
  | backoffExpiry e => exact happening_runs (·.backoffUp e) s
  | probeTimerExpiry e => exact happening_runs (·.probeTimeUp e) s
  | lingerExpiry => exact happening_runs State.lingerUp s

theorem exec_of_not_wellFormed (hc : c.wellFormed = false) (s : State) : exec c s = .refused .otherRow := by
  cases c with
  | badCodeCommand code =>
    have hname : namesCommand code = true := by simpa [Instr.wellFormed] using hc
    show execBadCodeCommand code s = _
    rw [execBadCodeCommand, if_pos hname]
  | otherRegisterWrite o v =>
    have hno : ¬ ((isParamOffset o || isIgnoredOffset o) = true) := Bool.not_eq_true _ ▸ hc
    show execOtherRegisterWrite o v s = _
    rw [execOtherRegisterWrite, if_neg hno]
  | _ => cases hc

/-- Settles O3: each command is one of six ways to run, and each of them has a next state. -/
theorem everyCommandCompletes : Obligations.EveryCommandCompletes := by
  refine fun c s => ⟨fun hc => ?_, fun hc => exec_of_not_wellFormed hc s, fun hc hr => (exec_runs hc hr s).2⟩
  by_cases hr : c = .resetRelease
  · subst hr
    exact ⟨_, rfl⟩
  · exact (exec_runs hc hr s).1

/-! ### A step -/

theorem step_cons {rest : List Instr} (h : s.pending = c :: rest) : step s = exec c { s with pending := rest } := by
  simp [step, h]

theorem step_nil (h : s.pending = []) : step s = .next (if s.reportDue then s.finishCommand else s.tick) := by
  simp [step, h]

/-- Settles O1: it is the second case of `step`. -/
theorem stepTakesTheFrontCommand : Obligations.StepTakesTheFrontCommand :=
  fun _ _ _ h => step_cons h

/-! ### Time -/

/-- A timer of character times counts one down, but for its last. -/
theorem tickCount_counts {w : Nat} (v : BitVec w) :
    (2 ≤ v.toNat → (tickCount v).toNat + 1 = v.toNat) ∧ (v.toNat < 2 → tickCount v = v) := by
  unfold tickCount
  constructor
  · intro h
    have hlt := v.isLt
    have hone : (1#w).toNat = 1 := by
      rw [BitVec.toNat_ofNat]
      exact Nat.mod_eq_of_lt (by omega)
    rw [if_pos h, BitVec.toNat_sub_of_le (by rw [BitVec.le_def, hone]; omega), hone]
    omega
  · intro h
    rw [if_neg (by omega)]

/-- What is left of an echo's deadline after a character time. -/
theorem deadline_tick (n : Nat) : max 1 (n - 1) = if n < 2 then 1 else n - 1 := by
  split <;> omega

theorem State.tick_held (h : s.resetHeld = true) : s.tick = s := by simp [State.tick, h]

theorem State.tick_running (h : s.resetHeld = false) : s.tick = { s with
    lastClose := none
    queue := { s.queue with lingerTimer := tickCount s.queue.lingerTimer }
    table := s.tick.table
    arbiter := { s.arbiter with pollTimer := s.arbiter.pollTimer.tick }
    line := { s.line with
      guardTimer := tickCount s.line.guardTimer
      replyTimer := tickCount s.line.replyTimer
      gapTimer := tickCount s.line.gapTimer
      echoList := s.tick.line.echoList } } := by
  simp [State.tick, h]

theorem State.tick_table (h : s.resetHeld = false) : s.tick.table = { s.table with entries := s.tick.table.entries } := by
  simp [State.tick, h]

/-- Each echo keeps its character and counts its deadline down. -/
theorem State.tick_echoList (h : s.resetHeld = false) :
    s.tick.line.echoList.map EchoChar.value = s.line.echoList.map EchoChar.value ∧
      s.tick.line.echoList.map EchoChar.deadline =
        s.line.echoList.map fun e => if e.deadline < 2 then 1 else e.deadline - 1 := by
  simp [State.tick, h, Function.comp_def, deadline_tick]

/-- The report of a quiet line takes the exchange from GUARD to TRANSMIT and from ANSWER_GUARD to ANSWER. -/
theorem State.settle_of_reportDue (h : ReportDue s) : ∀ x ∈ s.exchange, ∃ y ∈ s.settle.exchange, y.kind = x.kind ∧
    y.place = x.place ∧ y.slot = x.slot ∧ (x.phase = .guard → y.phase = .transmit) ∧
      (x.phase = .answerGuard → y.phase = .answer) := by
  obtain ⟨-, hguard, hrx, htx, x, hx, hphase⟩ := h
  intro y hy
  obtain rfl : x = y := Option.some.inj (Eq.trans (Eq.symm hx) hy)
  have hquiet : s.lineQuiet = true := by simp [State.lineQuiet, hguard, hrx, htx]
  rw [s.settle_of_exchange x hx]
  rcases s.reportQuiet_cases with ⟨y, -, hy, hp, e⟩ | ⟨y, -, hy, hp, e⟩ | ⟨hno, -⟩
  · obtain rfl : x = y := Option.some.inj (Eq.trans (Eq.symm hx) hy)
    rw [e]
    exact ⟨_, rfl, rfl, rfl, rfl, fun _ => rfl, fun k => absurd (hp.symm.trans k) nofun⟩
  · obtain rfl : x = y := Option.some.inj (Eq.trans (Eq.symm hx) hy)
    obtain ⟨d, hd⟩ : ∃ d, x.decision = some d := by
      rcases hphase with hphase | ⟨-, hsome⟩
      · exact absurd (hp.symm.trans hphase) nofun
      · exact Option.isSome_iff_exists.mp hsome
    rw [e, State.enterAnswer, hd]
    exact ⟨_, rfl, rfl, rfl, rfl, fun k => absurd (hp.symm.trans k) nofun, fun _ => rfl⟩
  · rcases hphase with hphase | ⟨hphase, -⟩
    · exact absurd hphase (hno x hquiet hx).1
    · exact absurd hphase (hno x hquiet hx).2

/-- Settles O2: with no command waiting a step is the report of a quiet line or one tick of every timer. -/
theorem anEmptyQueueLetsTimePass : Obligations.AnEmptyQueueLetsTimePass := by
  refine ⟨fun s hp hdue => ⟨?_, State.settle_of_reportDue hdue⟩, fun s hp hno => ⟨s.tick, ?_, ?_⟩,
    fun n m hm => (BeatTimer.iterate_tick_load n m hm).1⟩
  · rw [step_nil hp, if_pos (s.reportDue_iff.mpr hdue)]
    rfl
  · rw [step_nil hp, if_neg (mt s.reportDue_iff.mp hno)]
  · by_cases h : s.resetHeld = true
    · rw [State.tick_held h]
      refine ⟨fun _ => rfl, rfl, rfl, rfl, rfl, rfl, rfl, rfl, hp, rfl, Iff.rfl, rfl, rfl, rfl,
        fun _ => ⟨rfl, rfl, rfl⟩, rfl, rfl, Iff.rfl, Iff.rfl, Iff.rfl, fun k => by rw [h] at k; cases k⟩
    · have h : s.resetHeld = false := by simpa using h
      have hentry := State.tick_entry h
      have htable := State.tick_table h
      obtain ⟨hvalues, hdeadlines⟩ := State.tick_echoList h
      obtain ⟨hguard, hguard'⟩ := tickCount_counts s.line.guardTimer
      obtain ⟨hreply, hreply'⟩ := tickCount_counts s.line.replyTimer
      obtain ⟨hgap, hgap'⟩ := tickCount_counts s.line.gapTimer
      obtain ⟨hlinger, hlinger'⟩ := tickCount_counts s.queue.lingerTimer
      rw [State.tick_running h]
      generalize s.tick = u at hentry htable hvalues hdeadlines
      refine ⟨fun k => absurd (h.symm.trans k) nofun, rfl, rfl, rfl, rfl, rfl, rfl, rfl, hp, rfl, tickCount_eq_zero _, rfl,
        s.arbiter.pollTimer.tick_running, htable, fun i => ?_, rfl, hvalues, tickCount_eq_zero _, tickCount_eq_zero _,
        tickCount_eq_zero _, ?_⟩
      rotate_left
      · intro _
        refine ⟨rfl, fun i => ?_, rfl, hguard, hguard', hreply, hreply', hgap, hgap', hlinger, hlinger', hdeadlines⟩
        show (u.entry i).backoffTimer = _ ∧ (u.entry i).probeTimer = _
        rw [hentry]
        exact ⟨rfl, rfl⟩
      · show u.entry i = { s.entry i with backoffTimer := (u.entry i).backoffTimer, probeTimer := (u.entry i).probeTimer } ∧
          (u.entry i).backoffTimer.running = _ ∧ (u.entry i).probeTimer.running = _
        rw [hentry]
        exact ⟨rfl, BeatTimer.tick_running _, BeatTimer.tick_running _⟩

/-! ### The resets -/

theorem execHardwareReset_released (h : s.resetHeld = false) :
    exec .hardwareReset s = .next { State.reset with resetHeld := true, pending := s.pending } := by
  show execHardwareReset s = _
  simp [execHardwareReset, h]

/-- With RESET low no access is taken and nothing is driven on the data pins. -/
theorem State.held_access (h : s.resetHeld = true) (driven : Option Word) (bus later : BusPins) :
    s.dataDriven driven bus later = none ∧ s.busCommand bus later = none ∧ (s.pins driven).data = none := by
  simp [State.dataDriven, State.busCommand, State.access, State.pins, h]

/-- Settles O4: each edge is one write of the state. -/
theorem resetPinEdges : Obligations.ResetPinEdges := by
  refine fun s => ⟨fun h => ⟨_, execHardwareReset_released h, rfl, fun driven bus later => ?_⟩, rfl⟩
  obtain ⟨hdriven, hcommand, -⟩ := State.held_access
    (s := { State.reset with resetHeld := true, pending := s.pending }) rfl driven bus later
  exact ⟨rfl, hdriven, hcommand⟩

/-- Settles O6: the effect of CONTROLLER_RESET, which leaves no work. -/
theorem controllerResetKeepsTheSetup : Obligations.ControllerResetKeepsTheSetup := by
  intro s h
  rw [exec_controllerReset s h]
  simp only [State.controllerReset, State.accept, LineEngine.afterReset, h, State.reset]
  cases s.line.rx <;> rfl

/-! ### The line and the timers -/

theorem State.transmitNext_of_may {y : Transmission} (hy : s.line.tx = some y) (hmay : s.mayTransmit y = true) :
    s.transmitNext = { s with line := { s.line with
      tx := some (s.nextCharacter y)
      echoList := s.line.echoList ++ [{ value := (s.nextCharacter y).current, deadline := 2 }] } } := by
  simp [State.transmitNext, hy, hmay, echoOf]

/-- A transmitter that is QUIET, at its frame's last character, or with three echoes outstanding begins no character. -/
theorem State.transmitNext_of_not (h : ∀ y, s.line.tx = some y → s.mayTransmit y = false) : s.transmitNext = s := by
  unfold State.transmitNext
  split
  · next y hy => rw [h y hy]; rfl
  · rfl

theorem State.finishSending_of_last {y : Transmission} (hy : s.line.tx = some y)
    (h : y.isEnd = true ∨ y.stopRequested = true) : s.finishSending = { s with line := { s.line with tx := none } } := by
  simp [State.finishSending, hy, h]

theorem State.finishSending_of_not {y : Transmission} (hy : s.line.tx = some y) (h1 : y.isEnd = false)
    (h2 : y.stopRequested = false) : s.finishSending = s := by
  simp [State.finishSending, hy, h1, h2]

theorem State.drainOver_of_not (h : s.line.rx ≠ .drain ∨ s.line.tx ≠ none) : s.drainOver = s := by
  unfold State.drainOver
  split
  · next hd =>
    rw [if_neg (by simpa using h.resolve_left (· hd))]
  all_goals rfl

/-- Settles O53: each happening by its cases. -/
theorem lineAndTimerHappenings : Obligations.LineAndTimerHappenings := by
  intro s h
  have hmay (y : Transmission) : s.mayTransmit y = true ↔
      (y.isEnd = false ∧ y.stopRequested = false) ∧ s.line.echoList.length < 3 := by
    simp [State.mayTransmit]
  refine ⟨fun k => ?_, fun k => ?_, fun y hy => ⟨fun h1 h2 h3 => ?_, fun k => ⟨?_, ?_⟩, fun h1 h2 => ?_⟩, fun k => ?_,
    fun k => ?_, fun h1 h2 => ?_, fun k => ?_, fun k => happens_pollPeriodExpiry s h k, fun k => ?_, fun e => ⟨?_, ?_⟩⟩
  · exact happens_of_effect State.inputReturn h rfl (by simp [State.inputReturn, k, State.loadGuard])
  · exact happens_of_effect State.inputReturn h rfl (by simp [State.inputReturn, k])
  · exact happens_of_effect State.transmitNext h rfl (State.transmitNext_of_may hy ((hmay y).mpr ⟨⟨h1, h2⟩, h3⟩))
  · refine happens_of_effect State.transmitNext h rfl (State.transmitNext_of_not fun z hz => ?_)
    obtain rfl : y = z := Option.some.inj (Eq.trans (Eq.symm hy) hz)
    rw [← Bool.not_eq_true, hmay]
    rcases k with k | k <;> simp [k]
  · exact happens_of_effect State.finishSending h rfl (State.finishSending_of_last hy k)
  · exact happens_of_effect State.finishSending h rfl (State.finishSending_of_not hy h1 h2)
  · refine happens_of_effect State.transmitNext h rfl (State.transmitNext_of_not fun z hz => ?_)
    rw [← Bool.not_eq_true, hmay]
    rcases k with k | k
    · omega
    · rw [k] at hz; cases hz
  · exact happens_of_effect State.finishSending h rfl (by simp [State.finishSending, k])
  · exact happens_of_effect State.drainOver h rfl (by simp [State.drainOver, h1, h2, State.setReceiver])
  · exact happens_of_effect State.drainOver h rfl (State.drainOver_of_not k)
  · exact happens_of_effect State.pollPeriodUp h rfl (by simp [State.pollPeriodUp, BeatTimer.running, k])
  · exact happens_of_effect (fun t => t.backoffUp e) h rfl rfl
  · exact happens_of_effect (fun t => t.probeTimeUp e) h rfl rfl

/-! ### The invariants at reset -/

theorem restraintFollowsMarks_reset : RestraintFollowsMarks State.reset := by
  refine ⟨by decide, by decide, by decide, fun hc => ?_, fun _ => rfl⟩
  have hlow : State.reset.store.low = 64 := rfl
  rw [State.freeCount, State.reset_freeList, List.length_finRange, hlow] at hc
  omega

theorem recordsSound_reset : RecordsSound State.reset := by
  refine ⟨(storeSound_iff _).mpr stored_reset, fun g => ?_, fun f hf => (by cases hf),
    fun a ha => absurd ha (Option.not_mem_none a), fun e => ?_⟩
  · rw [State.reset_record]; decide
  · rw [State.reset_entry]; decide

/-- Settles O60: each invariant at reset. -/
theorem invariantsHoldAtReset : Obligations.InvariantsHoldAtReset :=
  ⟨by decide, ⟨nofun, fun _ => rfl⟩, fun c hc => absurd hc (Option.not_mem_none c), restraintFollowsMarks_reset, wf_reset,
    by decide, by rw [CommitmentBounded, State.reset_commitment]; decide, listsSound_reset, recordsSound_reset,
    fun _ hrun => by cases hrun⟩

end Sys2Proof.Machine
end

section
set_option Elab.async false
/-! PROOFS. The Line Arbiter's choice: what it does with each kind of work (O9 to O11), with none (O7), and what a happening's
end leaves (O8). -/

namespace Sys2Proof.Machine

open Sys2Proof.Safety

variable {s t u : State} {kind : ExchangeKind} {place : Place} {slot : Option SlotId}

/-! ### What the choice finds -/

theorem State.probePick_of_none (h : ∀ i, ¬ ProbeDue s i) : s.probePick = none :=
  s.probePick_none.mpr fun i => (eq_false_iff_not (s.probeDue_iff i)).mpr (h i)

theorem State.probePick_of_lowest {i : EntryId} (h : ProbeDue s i) (hlow : ∀ j : EntryId, j.val < i.val → ¬ ProbeDue s j) :
    s.probePick = some i :=
  (s.probePick_some i).mpr ⟨(s.probeDue_iff i).mpr h, fun j hj => (eq_false_iff_not (s.probeDue_iff j)).mpr (hlow j hj)⟩

theorem State.commandPick_of_none (h : ¬ CommandReady s) : s.commandPick = none :=
  s.commandPick_none.mpr fun k => (eq_false_iff_not (s.placeEligible_iff k)).mpr fun hk => h ⟨k, hk⟩

theorem State.commandPick_of_nearest {d : Fin 17} (h : PlaceReady s (s.arbiter.pointer + d))
    (hnear : ∀ e : Fin 17, e.val < d.val → ¬ PlaceReady s (s.arbiter.pointer + e)) :
    s.commandPick = some (s.arbiter.pointer + d) :=
  (s.commandPick_some _).mpr ⟨d, rfl, (s.placeEligible_iff _).mpr h,
    fun e he => (eq_false_iff_not (s.placeEligible_iff _)).mpr (hnear e he)⟩

theorem State.roundPick_of_lowest {i : EntryId} (hin : s.arbiter.roundInProgress = true) (hopen : s.store.restraint = .open)
    (hpos : s.arbiter.roundPosition.val ≤ i.val) (hi : Visitable s i)
    (hlow : ∀ j : EntryId, s.arbiter.roundPosition.val ≤ j.val → j.val < i.val → ¬ Visitable s j) :
    s.roundPick = some i := by
  have hnext : s.nextVisit = some i := (s.nextVisit_some i).mpr ⟨⟨hpos, (s.visitable_iff i).mpr hi⟩,
    fun j hj hjpos => (eq_false_iff_not (s.visitable_iff j)).mpr (hlow j hjpos hj)⟩
  simp [State.roundPick, hin, State.storeOpen, hopen, hnext]

/-- What the choice finds does not depend on the end of a finished round. -/
theorem State.probePick_endFinishedRound (s : State) : s.endFinishedRound.probePick = s.probePick := by
  rw [s.endFinishedRound_frame.1]
  rfl

theorem State.commandPick_endFinishedRound (s : State) : s.endFinishedRound.commandPick = s.commandPick := by
  obtain ⟨hframe, hpointer, -⟩ := s.endFinishedRound_frame
  rw [State.commandPick, hpointer, hframe]
  rfl

theorem State.callChoice_free (hx : s.exchange = none) (hrun : s.host.run = true) :
    s.callChoice = s.endFinishedRound.makeGrant := by
  simp [State.callChoice, hx, hrun, State.choice]

/-! ### The end of a finished round -/

theorem State.roundOver_iff (s : State) : s.roundOver = true ↔
    s.arbiter.roundInProgress = true ∧ s.store.restraint = .open ∧
      ∀ i : EntryId, s.arbiter.roundPosition.val ≤ i.val → ¬ Visitable s i := by
  simp only [State.roundOver, Bool.and_eq_true, State.storeOpen, beq_iff_eq, Option.isNone_iff_eq_none,
    s.nextVisit_none, eq_false_iff_not (s.visitable_iff _), and_assoc]

theorem State.endFinishedRound_over (h : s.roundOver = true) :
    s.endFinishedRound = { s with arbiter := { s.arbiter with
      roundInProgress := false
      roundPosition := 0
      pollTimer := if s.arbiter.pollPeriod = 0#8 then s.arbiter.pollTimer
        else { beats := s.arbiter.pollPeriod, passed := 0 } } } := by
  rw [State.endFinishedRound, if_pos h]
  rfl

theorem State.endFinishedRound_else (h : ¬ s.roundOver = true) : s.endFinishedRound = s := if_neg h

/-! ### Settling without work -/

theorem State.reportQuiet_of_no_exchange (h : s.exchange = none) : s.reportQuiet = s := by
  rcases s.reportQuiet_cases with ⟨x, -, hx, -⟩ | ⟨x, -, hx, -⟩ | ⟨-, e⟩
  · rw [h] at hx; cases hx
  · rw [h] at hx; cases hx
  · exact e

/-- With neither a probe due nor command work nor round work the choice ends a finished round and no more. -/
theorem State.settle_of_noWork (hx : s.exchange = none) (hrun : s.host.run = true) (hprobe : ∀ i, ¬ ProbeDue s i)
    (hcommand : ¬ CommandReady s) (hround : ¬ RoundReady s) : s.settle = s.endFinishedRound := by
  have hgrant : s.endFinishedRound.makeGrant = s.endFinishedRound := by
    rw [State.makeGrant, s.probePick_endFinishedRound, s.commandPick_endFinishedRound, s.roundPick_endFinishedRound,
      State.probePick_of_none hprobe, State.commandPick_of_none hcommand, s.roundPick_none_iff.mpr hround]
  rw [State.settle, State.callChoice_free hx hrun, hgrant]
  refine State.reportQuiet_of_no_exchange ?_
  rw [s.endFinishedRound_frame.1]
  exact hx

/-- Settles O7: no case of the choice holds, or no case of the report. -/
theorem settlingWithoutWorkAndFinishedRounds : Obligations.SettlingWithoutWorkAndFinishedRounds := by
  refine ⟨fun s hx hrun => s.settle_of_stopped hx hrun, fun s x hx hg ha => ?_, fun s x hx hq => ?_,
    fun s hx hp hc hin => ?_, fun s hx hrun hp hc hin => ⟨fun hre => ?_, fun hopen hno => ?_⟩,
    fun s => ⟨fun hin hopen hno => ?_, fun h => ?_⟩⟩
  · rw [s.settle_of_exchange x hx]
    rcases s.reportQuiet_cases with ⟨y, -, hy, hp, -⟩ | ⟨y, -, hy, hp, -⟩ | ⟨-, e⟩
    · exact absurd (by rw [show x = y from Option.some.inj (hx.symm.trans hy), hp]) hg
    · exact absurd (by rw [show x = y from Option.some.inj (hx.symm.trans hy), hp]) ha
    · exact e
  · rw [s.settle_of_exchange x hx]
    simp [State.reportQuiet, hq]
  · have hround : ¬ RoundReady s := fun ⟨h, _⟩ => by rw [hin] at h; cases h
    by_cases hrun : s.host.run = true
    · rw [State.settle_of_noWork hx hrun hp hc hround, State.endFinishedRound_else]
      rw [s.roundOver_iff]
      exact fun ⟨h, _⟩ => by rw [hin] at h; cases h
    · exact s.settle_of_stopped hx (by simpa using hrun)
  · have hround : ¬ RoundReady s := fun ⟨_, h, _⟩ => by rw [hre] at h; cases h
    rw [State.settle_of_noWork hx hrun hp hc hround, State.endFinishedRound_else]
    rw [s.roundOver_iff]
    exact fun ⟨_, h, _⟩ => by rw [hre] at h; cases h
  · have hround : ¬ RoundReady s := fun ⟨_, _, i, hi, hv⟩ => hno i hi hv
    rw [State.settle_of_noWork hx hrun hp hc hround]
    exact State.endFinishedRound_over (s.roundOver_iff.mpr ⟨hin, hopen, hno⟩)
  · exact State.endFinishedRound_over (s.roundOver_iff.mpr ⟨hin, hopen, hno⟩)
  · refine State.endFinishedRound_else (mt s.roundOver_iff.mp ?_)
    rintro ⟨hin, hopen, hno⟩
    rcases h with h | h | ⟨i, hi, hv⟩
    · rw [h] at hin; cases hin
    · rw [h] at hopen; cases hopen
    · exact hno i hi hv

/-! ### Grants -/

/-- A grant that serves no slot sets the exchange and no more. -/
theorem State.grant_none (s : State) (kind : ExchangeKind) (place : Place) :
    s.grant kind place none = s.setExchange (some (granted kind place none)) := rfl

/-- The exchange a grant begins (R24). -/
theorem State.grant_granted (s : State) (kind : ExchangeKind) (place : Place) (slot : Option SlotId) :
    (s.grant kind place slot).exchange = some (granted kind place slot) := State.grant_exchange ..

/-- A grant moves the QUEUED record it serves to SENDING (R24, R128). -/
theorem State.record_grant (s : State) (kind : ExchangeKind) (place : Place) (slot : Option SlotId) (h : Handle) :
    (s.grant kind place slot).record h =
      if (slot.bind s.slot).bind Slot.handle = some h ∧ (s.record h).state = .queued
      then { s.record h with state := .sending } else s.record h := by
  rcases s.grant_cases kind place slot with ⟨i, x, g, hi, hx, hg, hq, e⟩ | ⟨hno, e⟩ <;> rw [e]
  · have hserves : (slot.bind s.slot).bind Slot.handle = some g := by rw [hi]; simp [hx, hg]
    rw [hserves, State.setExchange_record, State.record_moveRecord]
    by_cases hgh : g = h
    · rw [if_pos hgh, if_pos ⟨by rw [hgh], by rw [← hgh]; exact hq⟩, hgh]
    · rw [if_neg hgh, if_neg fun ⟨k, _⟩ => hgh (Option.some.inj k)]
  · rw [State.setExchange_record, if_neg]
    rintro ⟨k, hq⟩
    obtain ⟨x, hsx, hx⟩ := Option.bind_eq_some_iff.mp k
    obtain ⟨i, hi, hix⟩ := Option.bind_eq_some_iff.mp hsx
    exact hno i x h hi hix hx hq

/-- Settles O9: the probe is the first of R65's cases. -/
theorem probesGoFirst : Obligations.ProbesGoFirst := by
  intro s i hx hrun hdue hlow
  rw [State.callChoice_free hx hrun, State.makeGrant, s.probePick_endFinishedRound, State.probePick_of_lowest hdue hlow]
  rfl

/-- With no probe due, command work at a place and round work not ready or not in turn, the choice serves that place. -/
theorem State.callChoice_command {k : Fin 17} (hx : s.exchange = none) (hrun : s.host.run = true)
    (hprobe : ∀ i, ¬ ProbeDue s i) (hk : s.commandPick = some k) (hturn : RoundReady s → s.arbiter.alternation = .round) :
    s.callChoice = s.endFinishedRound.grantCommand k := by
  rw [State.callChoice_free hx hrun, State.makeGrant, s.probePick_endFinishedRound, s.commandPick_endFinishedRound,
    s.roundPick_endFinishedRound, State.probePick_of_none hprobe, hk]
  cases hr : s.roundPick with
  | none => rfl
  | some i =>
    have hready : RoundReady s := by
      by_contra hno
      rw [s.roundPick_none_iff.mpr hno] at hr
      cases hr
    have hflag : s.endFinishedRound.arbiter.alternation = .round := s.endFinishedRound_frame.2.2.1.trans (hturn hready)
    exact if_pos hflag

theorem State.grantCommand_sync {k : Fin 17} {i : EntryId} (hi : i.val = k.val) (hsync : (s.entry i).syncNeeded = true) :
    s.grantCommand k =
      State.grant { s with arbiter := s.arbiter.afterCommand k } (.sync .command) (.station i) none := by
  simp [State.grantCommand, (placeOfIndex_station k i).mpr hi.symm, hsync]

theorem State.grantCommand_head {k : Fin 17} {i : EntryId} (hi : i.val = k.val) (hsync : (s.entry i).syncNeeded = false)
    {head : SlotId} (hhead : (s.entry i).pendingList.head? = some head) {x : Slot} (hx : s.slot head = some x) :
    s.grantCommand k =
      State.grant { s with arbiter := s.arbiter.afterCommand k } x.kind.exchange (.station i) (some head) := by
  obtain ⟨rest, hlist⟩ := List.head?_eq_some_iff.mp hhead
  simp [State.grantCommand, (placeOfIndex_station k i).mpr hi.symm, hsync, hlist, hx]

theorem State.grantCommand_broadcast {head : SlotId} (hhead : s.command.broadcastList.head? = some head) :
    s.grantCommand 16 =
      State.grant { s with arbiter := s.arbiter.afterCommand 16 } .broadcast .broadcast (some head) := by
  obtain ⟨rest, hlist⟩ := List.head?_eq_some_iff.mp hhead
  simp [State.grantCommand, (placeOfIndex_broadcast 16).mpr rfl, hlist]

/-- Settles O10: the choice serves the first eligible place of the walk. -/
theorem commandWorkWalksTheCircle : Obligations.CommandWorkWalksTheCircle := by
  intro s d hx hrun hprobe hk hnear hturn
  have hchoice := State.callChoice_command hx hrun hprobe (State.commandPick_of_nearest hk hnear) hturn
  generalize s.arbiter.pointer + d = k at hk hchoice
  obtain ⟨hframe, -⟩ := s.endFinishedRound_frame
  rw [hchoice]
  clear hchoice hturn hprobe hnear
  generalize s.endFinishedRound.arbiter = a at hframe ⊢
  rw [hframe]
  have helig : State.placeEligible { s with arbiter := a } k = true := (s.placeEligible_iff k).mpr hk
  obtain ⟨kind, place, slot, -, hgrant⟩ := State.grantCommand_granted helig
  have hleaves := State.grant_frame { s with arbiter := a.afterCommand k } kind place slot
  have hrecord (w : State) (kind place slot h) := w.record_grant kind place slot h
  refine ⟨?_, ?_, ?_, ?_, ?_, ?_, ?_, ?_, fun i hi hsync => ?_, fun i hi hsync head hhead x hsx => ?_,
    fun h16 head hhead => ?_, rfl⟩
  · rw [hgrant, State.grant_arbiter]; rfl
  · rw [hgrant, hleaves]
  · rw [hgrant, hleaves]
  · rw [hgrant, hleaves]
  · rw [hgrant, hleaves]
  · rw [hgrant, hleaves]
  · rw [hgrant, hleaves]
  · rw [hgrant, hleaves]; exact ⟨rfl, rfl, rfl, rfl, rfl⟩
  · rw [State.grantCommand_sync (s := { s with arbiter := a }) hi hsync]
    exact ⟨rfl, rfl⟩
  · rw [State.grantCommand_head (s := { s with arbiter := a }) hi hsync hhead hsx]
    refine ⟨State.grant_granted .., fun h => ?_⟩
    rw [State.record_grant]
    have hslot : ((some head).bind (State.slot { s with arbiter := a.afterCommand k })).bind Slot.handle = x.handle := by
      show (s.slot head).bind Slot.handle = x.handle
      rw [hsx]
      rfl
    rw [hslot]
    rfl
  · subst h16
    rw [State.grantCommand_broadcast (s := { s with arbiter := a }) hhead]
    exact ⟨State.grant_granted .., fun h => State.record_grant ..⟩

/-- Settles O11: round work is chosen, and a round with a station to visit is not over. -/
theorem roundWorkVisitsInOrder : Obligations.RoundWorkVisitsInOrder := by
  intro s i hx hrun hprobe hin hopen hpos hi hlow hturn
  have hround : RoundReady s := ⟨hin, hopen, i, hpos, hi⟩
  have hgrant : s.makeGrant = s.grantRound i := by
    rw [State.makeGrant, State.probePick_of_none hprobe, State.roundPick_of_lowest hin hopen hpos hi hlow]
    cases hc : s.commandPick with
    | none => rfl
    | some k =>
      have hready : CommandReady s := by
        by_contra hno
        rw [State.commandPick_of_none hno] at hc
        cases hc
      exact if_neg (by rw [hturn hready]; nofun)
  rw [State.callChoice_free hx hrun, s.endFinishedRound_of_roundReady hround, hgrant]
  rfl

/-! ### What a happening's end leaves -/

/-- The choice leaves an exchange in flight, and grants on a free line: the record of the slot granted moves to SENDING. -/
theorem State.callChoice_grants (s : State) :
    (s.callChoice.exchange = s.exchange ∧ ∀ h, s.callChoice.record h = s.record h) ∨
      (s.exchange = none ∧ ∃ kind place slot, s.callChoice.exchange = some (granted kind place slot) ∧
        ∀ h, s.callChoice.record h = s.record h ∨ ((slot.bind s.slot).bind Slot.handle = some h ∧
          (s.record h).state = .queued ∧ s.callChoice.record h = { s.record h with state := .sending })) := by
  rcases s.callChoice_granted with ⟨-, e⟩ | ⟨hx, -, ⟨-, -, -, e⟩ | ⟨a, kind, place, slot, -, -, e⟩⟩ <;> rw [e]
  · exact .inl ⟨rfl, fun _ => rfl⟩
  · rw [s.endFinishedRound_frame.1]
    exact .inl ⟨rfl, fun _ => rfl⟩
  · refine .inr ⟨hx, kind, place, slot, State.grant_granted .., fun h => ?_⟩
    rw [State.record_grant]
    split
    · next hq => exact .inr ⟨hq.1, hq.2, rfl⟩
    · exact .inl rfl

/-- The records that the choice reaches, by the exchange that it leaves. -/
theorem State.record_callChoice (s : State) (h : Handle) : s.callChoice.record h = s.record h ∨
    s.exchange = none ∧ (∃ x ∈ s.callChoice.exchange, (x.slot.bind s.slot).bind Slot.handle = some h) ∧
      (s.record h).state = .queued ∧ s.callChoice.record h = { s.record h with state := .sending } := by
  rcases s.callChoice_grants with ⟨-, hrecord⟩ | ⟨hx, kind, place, slot, hgrant, hrecord⟩
  · exact .inl (hrecord h)
  · rcases hrecord h with e | ⟨hs, hq, e⟩
    · exact .inl e
    · exact .inr ⟨hx, ⟨_, hgrant, hs⟩, hq, e⟩

theorem TurnTaken.pollPeriod {a b : Arbiter} (h : TurnTaken a b) : b.pollPeriod = a.pollPeriod := by
  cases h <;> rfl

theorem State.callChoice_pollPeriod (s : State) : s.callChoice.arbiter.pollPeriod = s.arbiter.pollPeriod := by
  rcases s.callChoice_arbiter with h | h | h
  · rw [h]
  · rw [h]; exact s.endFinishedRound_frame.2.2.2
  · exact h.pollPeriod.trans s.endFinishedRound_frame.2.2.2

theorem State.callChoice_engaged (h : s.exchange ≠ none ∨ s.host.run = false) : s.callChoice = s := by
  rcases s.callChoice_cases with ⟨hx, hrun, -⟩ | ⟨-, e⟩
  · rcases h with h | h
    · exact absurd hx h
    · rw [h] at hrun; cases hrun
  · exact e

/-- The report of a quiet line keeps the slot served and reaches no record. -/
theorem State.reportQuiet_keeps (s : State) :
    (∀ h, s.reportQuiet.record h = s.record h) ∧
      ∀ x ∈ s.exchange, ∃ y ∈ s.reportQuiet.exchange, y.slot = x.slot := by
  refine ⟨fun h => by rw [State.reportQuiet_frame]; rfl, fun x hx => ?_⟩
  rcases s.reportQuiet_cases with ⟨y, -, hy, -, e⟩ | ⟨y, -, hy, -, e⟩ | ⟨-, e⟩ <;> rw [e]
  · rw [s.enterTransmit_eq, show x = y from Option.some.inj (Eq.trans (Eq.symm hx) hy)]
    exact ⟨_, rfl, rfl⟩
  · rw [show x = y from Option.some.inj (Eq.trans (Eq.symm hx) hy)]
    unfold State.enterAnswer
    split
    · exact ⟨_, rfl, rfl⟩
    · exact ⟨_, hy, rfl⟩
  · exact ⟨x, hx, rfl⟩

/-- The report of a quiet line counts the attempt of the slot served. -/
theorem State.reportQuiet_slot (s : State) (i : SlotId) : s.reportQuiet.slot i = s.slot i ∨
    ∃ x ∈ s.reportQuiet.exchange, x.phase = .transmit ∧ x.slot = some i ∧
      s.reportQuiet.slot i = (s.slot i).map fun y => { y with attempts := satInc y.attempts } := by
  rcases s.reportQuiet_cases with ⟨x, -, hx, -, e⟩ | ⟨x, -, -, -, e⟩ | ⟨-, e⟩ <;> rw [e]
  · rw [s.enterTransmit_eq]
    show (s.countAttempt x.slot).slot i = _ ∨ ∃ y ∈ some _, _ ∧ _ ∧ (s.countAttempt x.slot).slot i = _
    rw [State.countAttempt_slot]
    split
    · next hi => exact .inr ⟨_, rfl, rfl, hi, rfl⟩
    · exact .inl rfl
  · unfold State.enterAnswer
    split
    · rw [s.countRefusal_frame]
      exact .inl rfl
    · exact .inl rfl
  · exact .inl rfl

theorem State.countRefusal_entry (s : State) (p : Place) (v : Verdict) (i : EntryId) :
    (s.countRefusal p v).entry i = if p = .station i ∧ (v = .long ∨ v = .shortRecord)
      then { s.entry i with refusals := satInc (s.entry i).refusals } else s.entry i := by
  have hrefuses : v.refuses = true ↔ v = .long ∨ v = .shortRecord := by cases v <;> simp [Verdict.refuses]
  cases p with
  | broadcast => rfl
  | station e =>
    simp only [State.countRefusal, hrefuses, Place.station.injEq]
    split
    · next hv =>
      rw [State.entry_setEntry]
      split
      · next he => rw [if_pos ⟨he, hv⟩, he]
      · next he => rw [if_neg fun h => he h.1]
    · next hv => rw [if_neg fun h => hv h.2]

/-- The report of a quiet line counts the refusal of the station answered REFUSE. -/
theorem State.reportQuiet_entry (s : State) (i : EntryId) : s.reportQuiet.entry i = s.entry i ∨
    ∃ x ∈ s.reportQuiet.exchange, x.phase = .answer ∧ x.place = .station i ∧
      (∃ d ∈ x.decision, d.verdict = .long ∨ d.verdict = .shortRecord) ∧
      s.reportQuiet.entry i = { s.entry i with refusals := satInc (s.entry i).refusals } := by
  rcases s.reportQuiet_cases with ⟨x, -, -, -, e⟩ | ⟨x, -, hx, -, e⟩ | ⟨-, e⟩ <;> rw [e]
  · rw [s.enterTransmit_eq]
    exact .inl rfl
  · cases hd : x.decision with
    | none => simp [State.enterAnswer, hd]
    | some d =>
      have hanswer : s.enterAnswer x = ((s.countRefusal x.place d.verdict).startSending (s.answerFrame x d)).setExchange
          (some { x with phase := .answer }) := by simp [State.enterAnswer, hd]
      rw [hanswer]
      show (s.countRefusal x.place d.verdict).entry i = _ ∨ ∃ y ∈ some _, _ ∧ _ ∧ _ ∧
        (s.countRefusal x.place d.verdict).entry i = _
      rw [State.countRefusal_entry]
      split
      · next h => exact .inr ⟨_, rfl, rfl, h.1, ⟨d, hd, h.2⟩, rfl⟩
      · exact .inl rfl
  · exact .inl rfl

/-- The note of a close, by what the happening did. -/
theorem closeOf_of_ends {b : State} (u : State) :
    (∀ x ∈ b.exchange, s.exchange = none → u.exchange ≠ none → ∃ c, closeOf b s u = some c ∧
      c.place = x.place ∧
      (c.headLeft = true ↔ ∃ e, x.place = .station e ∧
        ∃ head ∈ (b.entry e).pendingList.head?, head ∉ (s.entry e).pendingList) ∧
      c.turn.pointer = s.arbiter.pointer ∧ c.turn.alternation = s.arbiter.alternation ∧
      c.turn.roundPosition = s.endFinishedRound.arbiter.roundPosition) ∧
    (b.exchange = none ∨ s.exchange ≠ none ∨ u.exchange = none → closeOf b s u = none) := by
  obtain ⟨-, hpointer, halternation, -⟩ := s.endFinishedRound_frame
  rcases closeOf_cases b s u with ⟨y, hy, hs, hu, e⟩ | ⟨hno, e⟩
  · refine ⟨fun x hx _ _ => ?_, fun h => ?_⟩
    · rw [show x = y from Option.some.inj (Eq.trans (Eq.symm hx) hy)]
      exact ⟨_, e, rfl, b.headLeaves_iff s y.place, hpointer, halternation, rfl⟩
    · rcases h with h | h | h
      · rw [h] at hy; cases hy
      · exact absurd hs h
      · exact absurd h hu
  · refine ⟨fun x hx hs hu => ?_, fun _ => e⟩
    rcases hno with h | h | h
    · rw [h] at hx; cases hx
    · exact absurd hs h
    · exact absurd h hu

/-- Settles O8: the choice and then the report, each by what it reaches. -/
theorem settlingReachesOnlyTheLine : Obligations.SettlingReachesOnlyTheLine := by
  intro s
  have hchoice := s.callChoice_frame
  have hreport := s.callChoice.reportQuiet_frame
  have hslots := s.callChoice.reportQuiet_slot
  have hentries := s.callChoice.reportQuiet_entry
  obtain ⟨hkeeps, hexchange⟩ := s.callChoice.reportQuiet_keeps
  have hslot (i : SlotId) : s.callChoice.slot i = s.slot i := by rw [hchoice]; rfl
  have hentry (i : EntryId) : s.callChoice.entry i = s.entry i := by rw [hchoice]; rfl
  have hrecord (h : Handle) : s.callChoice.reportQuiet.record h = s.record h ∨
      s.exchange = none ∧ (∃ x ∈ s.callChoice.reportQuiet.exchange, (x.slot.bind s.slot).bind Slot.handle = some h) ∧
        (s.record h).state = .queued ∧ s.callChoice.reportQuiet.record h = { s.record h with state := .sending } := by
    rcases s.record_callChoice h with e | ⟨hx, ⟨x, hmem, hserves⟩, hq, e⟩
    · exact .inl ((hkeeps h).trans e)
    · obtain ⟨y, hy, hslot⟩ := hexchange x hmem
      exact .inr ⟨hx, ⟨y, hy, by rw [hslot]; exact hserves⟩, hq, (hkeeps h).trans e⟩
  have hgrants : s.callChoice.exchange = s.exchange ∨
      s.exchange = none ∧ ∃ kind place slot, s.callChoice.exchange = some (granted kind place slot) := by
    rcases s.callChoice_grants with ⟨e, -⟩ | ⟨hx, kind, place, slot, e, -⟩
    · exact .inl e
    · exact .inr ⟨hx, kind, place, slot, e⟩
  refine ⟨?_, ?_, ?_, ?_, ?_, ?_, ?_, ?_, ?_, ?_, fun i => ?_, ?_, fun i => ?_, ?_, hrecord, ?_, ?_, fun h => ?_, hchoice,
    s.record_callChoice, hgrants, s.callChoice_pollPeriod, State.callChoice_engaged, rfl, rfl,
    fun b t u h => ?_⟩
  all_goals try rw [State.settle]
  · rw [hreport, hchoice]
  · rw [hreport, hchoice]
  · rw [hreport, hchoice]
  · rw [hreport, hchoice]
  · rw [hreport, hchoice]
  · rw [hreport, hchoice]
  · rw [hreport, hchoice]
  · rw [hreport, hchoice]
  · rw [hreport, hchoice]
  · rw [hreport, hchoice]
  · rw [← hslot i]; exact hslots i
  · rw [hreport, hchoice]
  · rw [← hentry i]; exact hentries i
  · rw [hreport, hchoice]; exact ⟨rfl, rfl, rfl, rfl, rfl⟩
  · rw [hreport, hchoice]
  · rw [hreport]; exact s.callChoice_pollPeriod
  · rw [hreport, State.callChoice_engaged h]
  · rcases h with ⟨rfl, rfl⟩ | ⟨rfl, rfl⟩
    · exact ⟨rfl, closeOf_of_ends s.settle⟩
    · exact ⟨rfl, closeOf_of_ends s.callChoice⟩

end Sys2Proof.Machine
end

section
set_option Elab.async false
/-! PROOFS. Line commands that are accepted (O15, O16), and the commands on stations: ATTACH, DETACH, PAUSE, RESUME, REVIVE
and FLUSH (O19 to O22). -/

namespace Sys2Proof.Machine

open Sys2Proof.Safety

variable {s t u : State} {c : Instr}

/-! ### Line commands -/

/-- Below 32 commitments the lowest free slot is taken (R156, R159). -/
theorem State.takeSlot_of_lowest {i : SlotId} (hi : s.lowestFreeSlot = some i) (h : s.commitment < 32) (x : Slot) :
    s.takeSlot x =
      .ok (((s.setSlot i (some x)).queueRecord x.handle x.keep).joinList x.place i, BitVec.ofNat 6 i.val) := by
  have hroom : ¬ Config.commitmentLimit ≤ s.commitment := Nat.not_le.mpr h
  rw [State.takeSlot, if_neg hroom, hi]

theorem sendCommand_takes {e : EntryId} {h : Handle} (he : s.lineStation = .ok e) (hh : s.readyRecordNamed = .ok h) :
    sendCommand s = s.takeSlot (s.sendSlot e h) := by
  rw [sendCommand, he, hh]

theorem broadcastCommand_takes {h : Handle} (hh : s.readyRecordNamed = .ok h) :
    broadcastCommand s = s.takeSlot (s.broadcastSlot h) := by
  rw [broadcastCommand, hh]

theorem pollCommand_takes {e : EntryId} (he : s.lineStation = .ok e) : pollCommand s = s.takeSlot (s.pollSlot e) := by
  rw [pollCommand, he]

theorem actionCommand_takes {e : EntryId} (he : s.lineStation = .ok e) (hcount : (highByte (s.param 2)).toNat ≤ 6) :
    actionCommand s = s.takeSlot (s.actionSlot e) := by
  rw [actionCommand, he]
  exact if_neg (Nat.not_lt.mpr hcount)

/-- Settles O15: the slot taken, the record QUEUED and the list joined are three writes. -/
theorem sendAndBroadcastTakeASlot : Obligations.SendAndBroadcastTakeASlot := by
  intro s h hheld hname hready hroom
  obtain ⟨i, hi, hfree, hlow⟩ := s.exists_lowest_slot hroom
  have hrecord := s.readyRecordNamed_ok hname hready
  refine ⟨i, hfree, hlow, fun e he hf => ?_, ?_⟩
  · exact accepts_of_ok sendCommand hheld rfl ((sendCommand_takes (s.lineStation_ok he hf) hrecord).trans
      (State.takeSlot_of_lowest hi hroom (s.sendSlot e h)))
  · exact accepts_of_ok broadcastCommand hheld rfl ((broadcastCommand_takes hrecord).trans
      (State.takeSlot_of_lowest hi hroom (s.broadcastSlot h)))

/-- Settles O16: the slot taken and the list joined are two writes. -/
theorem pollAndActionTakeASlot : Obligations.PollAndActionTakeASlot := by
  intro s e hheld he hf hroom
  obtain ⟨i, hi, hfree, hlow⟩ := s.exists_lowest_slot hroom
  have hstation := s.lineStation_ok he hf
  refine ⟨i, hfree, hlow, ?_, fun hcount => ?_⟩
  · exact accepts_of_ok pollCommand hheld rfl ((pollCommand_takes hstation).trans
      (State.takeSlot_of_lowest hi hroom (s.pollSlot e)))
  · exact accepts_of_ok actionCommand hheld rfl ((actionCommand_takes hstation hcount).trans
      (State.takeSlot_of_lowest hi hroom (s.actionSlot e)))

/-! ### ATTACH -/

theorem not_addressInRange {a : Byte} (h : a.toNat = 0 ∨ 63 ≤ a.toNat) : addressInRange a = false := by
  rw [← Bool.not_eq_true, addressInRange_iff]
  omega

theorem State.attachLimitsFit_iff (s : State) : s.attachLimitsFit = true ↔
    (lowByte (s.param 1)).toNat ≤ 15 ∧ 1 ≤ (s.param 2).toNat ∧ (s.param 2).toNat ≤ 480 := by
  simp only [State.attachLimitsFit, Bool.and_eq_true, decide_eq_true_eq, and_assoc]
  exact Iff.rfl

/-- After the checks of its parameters ATTACH takes the lowest VACANT entry, if no station holds the address (R11, R12). -/
theorem attachCommand_fits (h1 : 1 ≤ (lowByte (s.param 0)).toNat) (h2 : (lowByte (s.param 0)).toNat ≤ 62)
    (hfit : s.attachLimitsFit = true) : attachCommand s =
      if (s.entryHolding (lowByte (s.param 0))).isSome = true then .error .duplicateAddress
      else match s.lowestVacant with
        | none => .error .tableFull
        | some i => .ok (s.setEntry i s.attachedEntry, BitVec.ofNat 6 i.val) := by
  have hrange : addressInRange s.paramAddress = true := (addressInRange_iff _).mpr ⟨h1, h2⟩
  rw [attachCommand, hrange, hfit]
  rfl

theorem State.paramFailLimit_zero (s : State) : s.paramFailLimit = 0#8 ↔ (lowByte (s.param 1)).toNat = 0 := by
  rw [← BitVec.toNat_inj]
  rfl

/-- Settles O19: ATTACH's four checks in order, and the entry it makes. -/
theorem attachTakesTheLowestVacantEntry : Obligations.AttachTakesTheLowestVacantEntry := by
  intro s hheld a f limit
  refine ⟨fun h => ?_, fun h1 h2 => ⟨fun h => ?_, fun hf hmin hmax => ?_⟩⟩
  · refine refuses_of_error attachCommand hheld rfl ?_
    have hrange : addressInRange s.paramAddress = false := not_addressInRange h
    rw [attachCommand, hrange]
    rfl
  · refine refuses_of_error attachCommand hheld rfl ?_
    have hrange : addressInRange s.paramAddress = true := (addressInRange_iff _).mpr ⟨h1, h2⟩
    have hfit : s.attachLimitsFit = false := by
      rw [← Bool.not_eq_true, s.attachLimitsFit_iff]
      change 15 < (lowByte (s.param 1)).toNat ∨ (s.param 2).toNat = 0 ∨ 480 < (s.param 2).toNat at h
      omega
    rw [attachCommand, hrange, hfit]
    rfl
  · have hcommand := attachCommand_fits h1 h2 (s.attachLimitsFit_iff.mpr ⟨hf, hmin, hmax⟩)
    refine ⟨fun ⟨e, hv, ha⟩ => ?_, fun hno => ⟨fun hfull => ?_, fun e hv hlow => ?_⟩⟩
    · refine refuses_of_error attachCommand hheld rfl (hcommand.trans (if_pos ?_))
      rw [Option.isSome_iff_ne_none]
      intro hnone
      rcases (s.entryHolding_none _).mp hnone e with h | h
      · exact hv h
      · exact h ha
    · refine refuses_of_error attachCommand hheld rfl ?_
      rw [hcommand, (s.entryHolding_none _).mpr hno, s.lowestVacant_none.mpr hfull]
      rfl
    · refine accepts_of_ok attachCommand hheld rfl ?_
      rw [hcommand, (s.entryHolding_none _).mpr hno, (s.lowestVacant_some e).mpr ⟨hv, hlow⟩]
      simp only [f, ← s.paramFailLimit_zero]
      rfl

/-! ### PAUSE, RESUME and REVIVE -/

theorem State.onStation_ok_of {e : EntryId} (he : s.namedEntry = .ok e) {f : EntryId → Except Reason State}
    (hf : f e = .ok t) : s.onStation f = .ok (t, 0#6) := by
  rw [State.onStation, he]
  simp only [hf]

theorem State.onStation_error_of {e : EntryId} {r : Reason} (he : s.namedEntry = .ok e) {f : EntryId → Except Reason State}
    (hf : f e = .error r) : s.onStation f = .error r := by
  rw [State.onStation, he]
  simp only [hf]

theorem State.onStation_of_error {r : Reason} (he : s.namedEntry = .error r) (f : EntryId → Except Reason State) :
    s.onStation f = .error r := by
  rw [State.onStation, he]

/-- A management command on a station named by address is refused with the reason of its address (R3). -/
theorem refuses_of_namedEntry_error {r : Reason} (hc : c ∈ [Instr.detach, .pause, .resume, .revive, .flush])
    (hheld : s.resetHeld = false) (h : s.namedEntry = .error r) : Refuses c s r := by
  simp only [List.mem_cons, List.not_mem_nil, or_false] at hc
  rcases hc with rfl | rfl | rfl | rfl | rfl
  · exact refuses_of_error detachCommand hheld rfl (State.onStation_of_error h _)
  · exact refuses_of_error pauseCommand hheld rfl (State.onStation_of_error h _)
  · exact refuses_of_error resumeCommand hheld rfl (State.onStation_of_error h _)
  · exact refuses_of_error reviveCommand hheld rfl (State.onStation_of_error h _)
  · exact refuses_of_error flushCommand hheld rfl (State.onStation_of_error h _)

/-- A named entry is not VACANT and holds the address. -/
theorem State.namedEntry_holds {e : EntryId} (h : s.namedEntry = .ok e) :
    (s.entry e).state ≠ .vacant ∧ (s.entry e).address = some (lowByte (s.param 0)) := by
  rcases s.namedEntry_cases with ⟨-, h'⟩ | ⟨-, -, ⟨-, h'⟩ | ⟨g, hg, h'⟩⟩ <;> rw [h] at h' <;> cases h'
  exact s.entryHolding_some _ e hg

/-- An address in range that a station holds names an entry. -/
theorem State.namedEntry_of_holder {e : EntryId} (h1 : 1 ≤ (lowByte (s.param 0)).toNat)
    (h2 : (lowByte (s.param 0)).toNat ≤ 62) (hv : (s.entry e).state ≠ .vacant)
    (ha : (s.entry e).address = some (lowByte (s.param 0))) : ∃ e', s.namedEntry = .ok e' := by
  rcases s.namedEntry_cases with ⟨h, -⟩ | ⟨-, -, ⟨hnone, -⟩ | ⟨g, -, h⟩⟩
  · have h : (lowByte (s.param 0)).toNat = 0 ∨ 63 ≤ (lowByte (s.param 0)).toNat := h
    omega
  · rcases (s.entryHolding_none _).mp hnone e with h | h
    · exact absurd h hv
    · exact absurd ha h
  · exact ⟨g, h⟩

/-- Settles O21: each of the three is one write of the entry named. -/
theorem addressesPauseResumeRevive : Obligations.AddressesPauseResumeRevive := by
  refine ⟨fun s e hheld he => ⟨?_, ?_, fun hf => ?_, fun hf => ?_⟩, fun s => ⟨fun hheld c hc => ⟨fun h => ?_,
    fun h1 h2 h => ?_⟩, fun e he => State.namedEntry_holds he, fun e h1 h2 hv ha => State.namedEntry_of_holder h1 h2 hv ha⟩⟩
  · exact accepts_of_ok pauseCommand hheld rfl (State.onStation_ok_of he rfl)
  · exact accepts_of_ok resumeCommand hheld rfl (State.onStation_ok_of he rfl)
  · exact accepts_of_ok reviveCommand hheld rfl (State.onStation_ok_of he (if_pos hf))
  · exact refuses_of_error reviveCommand hheld rfl (State.onStation_error_of he (if_neg hf))
  · exact refuses_of_namedEntry_error hc hheld (s.namedEntry_badAddress h)
  · exact refuses_of_namedEntry_error hc hheld (s.namedEntry_noStation h1 h2 h)

/-! ### What a command taken together with a close finds -/

/-- Two states that differ in nothing but descriptors, and agree in those, are one. -/
theorem GrantTakenBack.unique {c : Close} {x : Exchange} (ht : GrantTakenBack s t c x) (hu : GrantTakenBack s u c x) :
    t = u := by
  have hdesc : t.store.descriptors = u.store.descriptors := by
    refine Vector.ext fun i hi => ?_
    exact (ht.2 ⟨i, hi⟩).trans (hu.2 ⟨i, hi⟩).symm
  rw [ht.1, hu.1, hdesc]

/-- A close grants a station again in one way. -/
theorem GrantedAgain.unique {e : EntryId} {c c' : Close} {x x' : Exchange} (h : GrantedAgain s e c x)
    (h' : GrantedAgain s e c' x') : c = c' ∧ x = x' :=
  ⟨Option.some.inj (h.1.symm.trans h'.1), Option.some.inj (h.2.1.symm.trans h'.2.1)⟩

/-- What a DETACH finds is what the model takes back. -/
theorem DetachFinds.eq {e : EntryId} (h : DetachFinds s e u) : u = s.takeBack e := by
  rcases s.takeBack_cases e with ⟨c, x, hg, ht⟩ | ⟨hno, ht⟩ <;> rw [ht]
  · rcases h with ⟨hno, -⟩ | ⟨c', x', hg', hback⟩
    · exact absurd hg (hno c x)
    · obtain ⟨rfl, rfl⟩ := GrantedAgain.unique hg hg'
      exact GrantTakenBack.unique hback (s.closePending_takenBack c x)
  · rcases h with ⟨-, h⟩ | ⟨c', x', hg', -⟩
    · exact h
    · exact absurd hg' (hno c' x')

/-- What a FLUSH finds is what the model takes back. -/
theorem FlushFinds.eq {e : EntryId} (h : FlushFinds s e u) : u = s.beforeFlush e := by
  rcases s.beforeFlush_cases e with ⟨c, x, hg, hmiss, ht⟩ | ⟨hno, ht⟩ <;> rw [ht]
  · rcases h with ⟨hno, -⟩ | ⟨c', x', hg', -, hback⟩
    · exact absurd hmiss (hno c x hg)
    · obtain ⟨rfl, rfl⟩ := GrantedAgain.unique hg hg'
      exact GrantTakenBack.unique hback (s.closePending_takenBack c x)
  · rcases h with ⟨-, h⟩ | ⟨c', x', hg', hmiss, -⟩
    · exact h
    · exact absurd hmiss (hno c' x' hg')

/-! ### DETACH -/

theorem State.engaged_iff (s : State) (e : EntryId) : s.engaged e = true ↔ ∃ x ∈ s.exchange, x.place = .station e := by
  cases h : s.exchange <;> simp [State.engaged, h]

/-- How DETACH completes a command in use (R14). -/
theorem State.detachOutcome_slot {e : EntryId} {i : SlotId} {x : Slot} (hx : s.slot i = some x) : s.detachOutcome e i =
    if (s.entry e).openAction = some i then (.detached, 0#8, (s.entry e).probeCount.toNat)
    else if x.cancelMark = true then (.cancelled, 0#8, 0) else (.detached, 0#8, 0) := by
  simp [State.detachOutcome, State.marked, hx]

/-- Settles O20: every command of the list completes, and the entry becomes VACANT. -/
theorem detachFinishesTheStation : Obligations.DetachFinishesTheStation := by
  refine fun b e hheld he => ⟨fun hx hno => ?_, fun s hfinds hfree => ?_⟩
  · refine refuses_of_error detachCommand hheld rfl (State.onStation_error_of he ?_)
    have hsame : b.takeBack e = b := (DetachFinds.eq (.inl ⟨hno, rfl⟩)).symm
    rw [hsame, State.detach, if_pos ((b.engaged_iff e).mpr hx)]
  · have hengaged : ¬ s.engaged e = true := by
      rw [s.engaged_iff]
      exact fun ⟨x, hx, hp⟩ => hfree x hx hp
    refine ⟨(s.completeAll e (s.detachOutcome e)).setEntry e Entry.vacant, ?_, ?_, fun hlists => ?_⟩
    · refine accepts_of_ok detachCommand hheld rfl (State.onStation_ok_of he ?_)
      rw [← DetachFinds.eq hfinds, State.detach, if_neg hengaged]
    · rw [State.entry_setEntry, if_pos rfl]
    · have hsame := s.completeAll_same e (s.detachOutcome e)
      obtain ⟨hqueue, hfinished, hblocks, hhost, hcommand, htable, -, hother⟩ := s.completeAll_finished e (s.detachOutcome e)
        _ hlists.2 (s.detachOutcome_not_delivers e) fun i x hx => State.detachOutcome_slot hx
      generalize s.completeAll e (s.detachOutcome e) = t at hqueue hfinished hblocks hhost hcommand htable hother hsame
      refine ⟨hqueue, hfinished, fun j hj => ?_, hblocks, hsame.lostSummary, hsame.inbound, hhost, hsame.exchange,
        hsame.line, hsame.arbiter, hcommand, ?_, hsame.lastClose, hsame.resetHeld, hsame.readData, hsame.pending⟩
      · rw [State.entry_setEntry, if_neg (Ne.symm hj)]
        exact hother j hj
      · rw [State.setEntry, htable]

/-! ### FLUSH -/

theorem State.headSpared_cons {e : EntryId} {head : SlotId} (hhead : (s.entry e).pendingList.head? = some head) :
    s.headSpared e = true ↔
      (∃ x ∈ s.exchange, (x.kind = .send ∨ x.kind = .poll ∨ x.kind = .action) ∧ x.slot = some head) ∨
        (s.entry e).openAction = some head := by
  obtain ⟨rest, hlist⟩ := List.head?_eq_some_iff.mp hhead
  have hengaged : s.engagedCommand = some head ↔
      ∃ x ∈ s.exchange, (x.kind = .send ∨ x.kind = .poll ∨ x.kind = .action) ∧ x.slot = some head := by
    cases hx : s.exchange with
    | none => simp [State.engagedCommand, hx]
    | some x => cases hk : x.kind <;> simp [State.engagedCommand, hx, hk]
  simp only [State.headSpared, hlist, Bool.or_eq_true, beq_iff_eq, hengaged]

/-- A slot's command with a cancel mark (R5). -/
def Slot.withMark (x : Slot) : Slot := { x with cancelMark := true }

theorem State.markSlot_frame (s : State) (i : SlotId) :
    s.markSlot i = { s with command := { s.command with slots := (s.markSlot i).command.slots } } := by
  unfold State.markSlot
  split <;> rfl

theorem State.markSlot_slot (s : State) (i j : SlotId) :
    (s.markSlot i).slot j = if i = j then (s.slot j).map Slot.withMark else s.slot j := by
  unfold State.markSlot
  split
  · next x hx =>
    rw [State.slot_setSlot]
    split
    · next h => rw [← h, hx]; rfl
    · rfl
  · next hx =>
    split
    · next h => rw [← h, hx]; rfl
    · rfl

/-- A run of cancel marks writes slots, each of the run's once or more. -/
theorem State.foldl_markSlot (l : List SlotId) (s : State) :
    l.foldl State.markSlot s =
        { s with command := { s.command with slots := (l.foldl State.markSlot s).command.slots } } ∧
      ∀ j, (l.foldl State.markSlot s).slot j = if j ∈ l then (s.slot j).map Slot.withMark else s.slot j := by
  induction l generalizing s with
  | nil => exact ⟨rfl, fun j => by simp⟩
  | cons i l ih =>
    obtain ⟨hframe, hslot⟩ := ih (s.markSlot i)
    refine ⟨?_, fun j => ?_⟩
    · rw [List.foldl_cons]
      generalize l.foldl State.markSlot (s.markSlot i) = t at hframe
      exact hframe.trans (by rw [s.markSlot_frame i])
    · rw [List.foldl_cons, hslot, s.markSlot_slot]
      by_cases hij : i = j
      · subst hij
        cases s.slot i <;> simp [Slot.withMark]
      · simp [hij, Ne.symm hij]

/-- Settles O22: behind a spared head the rest of the list is marked, and else the whole list completes. -/
theorem flushCancelsOrMarks : Obligations.FlushCancelsOrMarks := by
  intro b s e hheld he hfinds hlists
  have hcommand (t : State) (ht : s.flush e = t) : Accepts .flush b t 0#6 := by
    refine accepts_of_ok flushCommand hheld rfl (State.onStation_ok_of he ?_)
    rw [← FlushFinds.eq hfinds, ht]
  refine ⟨fun head hhead hspared => ?_, fun hnone => ?_⟩
  · obtain ⟨hframe, hslot⟩ := State.foldl_markSlot (s.entry e).pendingList.tail s
    refine ⟨(s.entry e).pendingList.tail.foldl State.markSlot s, hcommand _ (by rw [State.flush, if_pos ((State.headSpared_cons hhead).mpr hspared)]), ?_,
      congrArg State.command hframe, hslot⟩
    exact hframe.trans (congrArg (fun k => { s with command := k }) (congrArg State.command hframe).symm)
  · have hspared : ¬ s.headSpared e = true := by
      cases hhead : (s.entry e).pendingList.head? with
      | none =>
        rw [List.head?_eq_none_iff] at hhead
        simp [State.headSpared, hhead]
      | some head =>
        obtain ⟨hengaged, hopen⟩ := hnone head hhead
        rw [State.headSpared_cons hhead]
        rintro (⟨x, hx, hk, hs⟩ | h)
        · exact hengaged x hx hk hs
        · exact hopen h
    have hsame := s.completeAll_same e fun _ => (.cancelled, 0#8, 0)
    obtain ⟨hqueue, hfinished, hblocks, hhost, hcmd, htable, hentry, hother⟩ := s.completeAll_finished e
      (fun _ => (.cancelled, 0#8, 0)) (fun _ _ => (.cancelled, 0#8, 0)) hlists.2 (fun _ => rfl) fun _ _ _ => rfl
    exact ⟨_, hcommand _ (by rw [State.flush, if_neg hspared]), hentry, hqueue, hfinished, hother, hblocks,
      hsame.lostSummary, hsame.inbound, hhost, hsame.exchange, hsame.line, hsame.arbiter, hcmd, htable, hsame.lastClose,
      hsame.resetHeld, hsame.readData, hsame.pending⟩

end Sys2Proof.Machine
end

section
set_option Elab.async false
/-! PROOFS. What the queries report, and the bus: every write is one command, taken at its edge (O23, O24, O27, O28). -/

namespace Sys2Proof.Machine

open Sys2Proof.Safety

variable {s t u : State} {c : Instr}

/-! ### The queries -/

/-- The bit a Bool is written as. -/
@[simp] theorem getLsbD_bit_zero (b : Bool) : (bit b).getLsbD 0 = b := by cases b <;> rfl

/-- A field of a word that lies in its low part. -/
theorem extractLsb'_append_low {n m k l : Nat} (a : BitVec n) (b : BitVec m) (h : k + l ≤ m) :
    (a.append b).extractLsb' k l = b.extractLsb' k l :=
  BitVec.extractLsb'_append_eq_of_add_le h

/-- A field of a word that lies in its high part. -/
theorem extractLsb'_append_high {n m k l : Nat} (a : BitVec n) (b : BitVec m) (h : m ≤ k) :
    (a.append b).extractLsb' k l = a.extractLsb' (k - m) l :=
  BitVec.extractLsb'_append_eq_of_le h

/-- A bit of a word that lies in its low part. -/
theorem getLsbD_append_low {n m k : Nat} (a : BitVec n) (b : BitVec m) (h : k < m) :
    (a.append b).getLsbD k = b.getLsbD k := by
  simpa [h] using BitVec.getLsbD_append (x := a) (y := b) (i := k)

/-- A bit of a word that lies in its high part. -/
theorem getLsbD_append_high {n m k : Nat} (a : BitVec n) (b : BitVec m) (h : m ≤ k) :
    (a.append b).getLsbD k = a.getLsbD (k - m) := by
  simpa [Nat.not_lt.mpr h] using BitVec.getLsbD_append (x := a) (y := b) (i := k)

theorem toNat_zero_append {n m : Nat} (b : BitVec m) : ((0#n).append b).toNat = b.toNat := by
  simp

/-- A field that lies above other bits and is followed by bits of 0. -/
theorem extractLsb'_zero_append {n m k l : Nat} (a : BitVec n) (b : BitVec m) (h : l ≤ m + k) :
    ((a.append 0#k).append b).extractLsb' 0 l = b.setWidth l := by
  apply BitVec.eq_of_getLsbD_eq
  intro i hi
  by_cases hlow : i < m
  · simp [hi, hlow, BitVec.getLsbD_append]
  · simp [hi, hlow, BitVec.getLsbD_append, BitVec.getLsbD_of_ge b i (Nat.not_lt.mp hlow), show i - m < k by omega]

theorem slotBits_toNat (o : Option SlotId) : (slotBits o).toNat = (o.map Fin.val).getD 0 := by
  cases o with
  | none => rfl
  | some i => exact Nat.mod_eq_of_lt i.isLt

/-- Settles O23: the words PARAM0 to PARAM5 take are `Entry.queryWords`, a field at each place. -/
theorem stationQueryReportsTheEntry : Obligations.StationQueryReportsTheEntry := by
  refine ⟨rfl, rfl, rfl, fun s hheld => ⟨fun h => ?_, fun e he => ⟨(s.entry e).queryWords, ?_, ?_⟩⟩⟩
  · refine refuses_of_error stationQueryCommand hheld rfl ?_
    rw [stationQueryCommand, (entryOfByte_none _).mpr h]
  · refine accepts_of_ok stationQueryCommand hheld rfl ?_
    rw [stationQueryCommand, (entryOfByte_some _ e).mpr he]
    rfl
  · generalize s.entry e = e
    have hslot : (if e.state = .working then slotBits e.openAction else 0#5).toNat =
        if e.state = .working then (e.openAction.map Fin.val).getD 0 else 0 := by
      split
      · exact slotBits_toNat _
      · rfl
    refine ⟨?_, ?_, ?_, ?_, ?_, ?_, ?_, ?_, ?_, ?_, ?_, ?_, ?_, ?_, ?_, ?_, ?_, ?_, ?_⟩
    all_goals simp (disch := decide) only [Entry.queryWords, Vector.getElem_mk, List.getElem_toArray,
      List.getElem_cons_zero, List.getElem_cons_succ, lowByte, highByte, HAppend.hAppend,
      extractLsb'_append_low, extractLsb'_append_high, getLsbD_append_low, getLsbD_append_high, Nat.reduceSub,
      BitVec.extractLsb'_eq_self, hslot, BitVec.toNat_ofNat, getLsbD_bit_zero, Nat.reducePow]

theorem State.slotsInUse_le (s : State) : s.slotsInUse ≤ 32 :=
  List.countP_le_length.trans (Nat.le_of_eq (s.command.slots.length_toList))

/-- The bits of LINE_QUERY's first word that the line alone decides, and the rest of it while the line is free. -/
theorem State.lineWord_of_line (s : State) :
    (s.exchange = none →
      s.lineWord.extractLsb' 0 6 = 0#6 ∧ s.lineWord.extractLsb' 6 5 = 31#5 ∧ s.lineWord.getLsbD 14 = false) ∧
    s.lineWord.getLsbD 11 = s.line.tx.isSome ∧ s.lineWord.extractLsb' 12 2 = s.line.rx.code ∧
    s.lineWord.getLsbD 15 = false := by
  rw [State.lineWord]
  cases s.exchange with
  | none =>
    generalize s.line.rx.code = r, s.line.tx.isSome = b
    revert r b
    decide
  | some x =>
    refine ⟨nofun, ?_, ?_, ?_⟩
    all_goals simp (disch := decide) only [HAppend.hAppend, extractLsb'_append_low, extractLsb'_append_high,
      getLsbD_append_low, getLsbD_append_high, Nat.reduceSub, BitVec.extractLsb'_eq_self, getLsbD_bit_zero,
      BitVec.getLsbD_zero]

/-- Settles O24: the words PARAM0 to PARAM5 take are `State.lineView` or `State.counterView`, a field at each place. -/
theorem lineQueryReportsTheLine : Obligations.LineQueryReportsTheLine := by
  refine ⟨rfl, fun _ => rfl, fun i => Nat.mod_eq_of_lt (i.isLt.trans (by decide)), rfl, fun _ => rfl, rfl, rfl,
    fun s hheld => ⟨fun h => ?_, fun h => ?_, fun h => ⟨s.lineView, ?_, ?_⟩⟩⟩
  · refine refuses_of_error lineQueryCommand hheld rfl ?_
    rw [lineQueryCommand]
    split
    · omega
    · omega
    · rfl
  · refine accepts_of_ok lineQueryCommand hheld rfl ?_
    rw [lineQueryCommand, h]
    rfl
  · refine accepts_of_ok lineQueryCommand hheld rfl ?_
    rw [lineQueryCommand, h]
    rfl
  · have hslots := s.slotsInUse_le
    have hpointer := s.arbiter.pointer.isLt
    have hposition := s.arbiter.roundPosition.isLt
    obtain ⟨hidle, htx, hrx, hzero⟩ := s.lineWord_of_line
    refine ⟨fun x hx => ?_, fun hx => ?_, htx, hrx, hzero, ?_⟩
    · have horigin : x.kind = .sync .round ↔ x.kind.originCode.getLsbD 0 = true := by
        cases x.kind with
        | sync origin => cases origin <;> simp [ExchangeKind.originCode, Work.code]
        | _ => simp [ExchangeKind.originCode]
      have houtcome : s.outcomeBits = (x.outcome.map AttemptOutcome.code).getD 15#4 := by
        rw [State.outcomeBits, hx]
        cases h : x.outcome <;> simp [h]
      rw [horigin, ← houtcome, State.lineView, State.lineWord, State.attemptNumber, hx]
      refine ⟨?_, ?_, ?_, ?_, ?_, ?_⟩
      all_goals simp (disch := decide) only [Vector.getElem_mk, List.getElem_toArray,
        List.getElem_cons_zero, List.getElem_cons_succ, lowByte, HAppend.hAppend,
        extractLsb'_append_low, extractLsb'_append_high, getLsbD_append_low, getLsbD_append_high, Nat.reduceSub,
        BitVec.extractLsb'_eq_self]
    · obtain ⟨hkind, hplace, horigin⟩ := hidle hx
      refine ⟨hkind, hplace, horigin, ?_, ?_⟩
      all_goals simp (disch := decide) only [State.lineView, State.attemptNumber, State.outcomeBits, hx,
        Option.bind_none, Vector.getElem_mk, List.getElem_toArray, List.getElem_cons_zero, List.getElem_cons_succ,
        lowByte, HAppend.hAppend, extractLsb'_append_low, BitVec.extractLsb'_eq_self]
    · refine ⟨?_, ?_, ?_, ?_, ?_, ?_, ?_, ?_, ?_, ?_⟩
      all_goals simp (disch := decide) only [State.lineView, Vector.getElem_mk, List.getElem_toArray,
        List.getElem_cons_zero, List.getElem_cons_succ, lowByte, HAppend.hAppend, highByte, toNat_zero_append,
        extractLsb'_append_low, extractLsb'_append_high, getLsbD_append_low, getLsbD_append_high, Nat.reduceSub,
        BitVec.extractLsb'_eq_self, getLsbD_bit_zero, extractLsb'_zero_append, BitVec.getLsbD_zero,
        BitVec.toNat_setWidth, BitVec.toNat_ofNat]
      all_goals omega

/-! ### Writes of the other registers (R153, R155, R172) -/

theorem happens_otherRegisterWrite {o : BitVec 5} {v : Word} (hheld : s.resetHeld = false)
    (ho : (isParamOffset o || isIgnoredOffset o) = true) :
    Happens (.otherRegisterWrite o v) s (s.writeOther o v) :=
  happens_of_effect (·.writeOther o v) hheld (by
    change execOtherRegisterWrite o v s = _
    rw [execOtherRegisterWrite, if_pos ho]) rfl

/-- The PARAM registers are read where they are written. -/
theorem State.readRegister_param (s : State) (i : Fin 6) :
    s.readRegister (BitVec.ofNat 5 (8 + i.val)) = s.param i := by
  obtain ⟨i, hi⟩ := i
  interval_cases i <;> rfl

theorem namesCommand_false_iff (code : Word) : namesCommand code = false ↔ code = 0#16 ∨ 21 ≤ code.toNat := by
  have hzero : code = 0#16 ↔ code.toNat = 0 := BitVec.toNat_inj.symm
  rw [hzero]
  simp only [namesCommand, Bool.and_eq_false_iff, decide_eq_false_iff_not]
  omega

/-- Settles O27: a bad code is refused, a PARAM register stores, an ignored one does nothing, and CMD_RESULT has its
fields in their places. -/
theorem otherWritesStoreOrChangeNothing : Obligations.OtherWritesStoreOrChangeNothing := by
  refine ⟨fun s hheld => ⟨fun code hcode => ?_, fun i v => ?_, fun o ho v => ?_⟩,
    fun s => ⟨s.readRegister_param, fun h => ?_, fun v h => ?_, fun r h => ?_⟩, rfl⟩
  · have hnames := (namesCommand_false_iff code).mpr hcode
    refine ⟨Laws.BusWrite.commandOfCode_bad code hnames, ?_⟩
    refine refuses_of_error (fun _ => .error .badCode) hheld ?_ rfl
    change execBadCodeCommand code s = _
    rw [execBadCodeCommand, if_neg (by rw [hnames]; decide)]
  · have hi : ∀ i : Fin 6, isParamOffset (BitVec.ofNat 5 (8 + i.val)) = true ∧
        paramAt (BitVec.ofNat 5 (8 + i.val)) = some i := by decide
    have h := happens_otherRegisterWrite (v := v) hheld (by rw [(hi i).1]; rfl)
    rwa [State.writeOther, (hi i).2] at h
  · have hignored : ∀ o ∈ [0#5, 2#5, 3#5, 7#5, 14#5, 16#5, 17#5, 18#5, 19#5, 23#5],
        isIgnoredOffset o = true ∧ paramAt o = none := by decide
    have h := happens_otherRegisterWrite (v := v) hheld (by rw [(hignored o ho).1, Bool.or_true])
    rwa [State.writeOther, (hignored o ho).2] at h
  · exact congrArg CmdResult.word h
  · have hword : s.readRegister 7#5 = (CmdResult.accepted v).word := congrArg CmdResult.word h
    rw [hword]
    clear h hword
    revert v
    decide
  · have hword : s.readRegister 7#5 = (CmdResult.refused r).word := congrArg CmdResult.word h
    rw [hword]
    cases r <;> exact ⟨rfl, rfl, rfl⟩

/-! ### The bus (R172, R173, R189) -/

/-- A write of COMMAND is one command, and that command's write is it again. -/
theorem busWriteOf_commandOfCode (v : Word) :
    (commandOfCode v).wellFormed = true ∧ busWriteOf (commandOfCode v) = some (6#5, v) := by
  cases hnames : namesCommand v with
  | false =>
    rw [Laws.BusWrite.commandOfCode_bad v hnames]
    exact ⟨by rw [Instr.wellFormed, hnames]; rfl, rfl⟩
  | true =>
    have hcodes : ∀ k : Fin 20, (commandOfCode (BitVec.ofNat 16 (k.val + 1))).wellFormed = true ∧
        busWriteOf (commandOfCode (BitVec.ofNat 16 (k.val + 1))) = some (6#5, BitVec.ofNat 16 (k.val + 1)) := by decide
    have hrange : ¬ (v = 0#16 ∨ 21 ≤ v.toNat) := fun h => by
      rw [(namesCommand_false_iff v).mpr h] at hnames
      cases hnames
    rw [not_or, ← BitVec.toNat_inj, BitVec.toNat_ofNat] at hrange
    have hv : BitVec.ofNat 16 (v.toNat - 1 + 1) = v := by
      rw [show v.toNat - 1 + 1 = v.toNat by omega, BitVec.ofNat_toNat, BitVec.setWidth_eq]
    rw [← hv]
    exact hcodes ⟨v.toNat - 1, by omega⟩

theorem extractLsb'_append_bit (v : Word) : v.extractLsb' 1 15 ++ bit (v.getLsbD 0) = v := by
  apply BitVec.eq_of_getLsbD_eq
  intro i hi
  cases i with
  | zero => exact (getLsbD_append_low _ _ (by decide)).trans (getLsbD_bit_zero _)
  | succ i =>
    refine (getLsbD_append_high _ _ (by omega)).trans ?_
    simp [show i < 15 by omega, Nat.add_comm]

/-- Every write is one command, and that command's write is it again. -/
theorem busWriteOf_commandOfWrite (o : BitVec 5) (v : Word) :
    (commandOfWrite o v).wellFormed = true ∧ busWriteOf (commandOfWrite o v) = some (o, v) := by
  have hat {k : Nat} (h : o.toNat = k) (hk : k < 32) : BitVec.ofNat 5 k = o :=
    BitVec.eq_of_toNat_eq ((BitVec.toNat_ofNat k 5).trans ((Nat.mod_eq_of_lt hk).trans h.symm))
  have hother : ∀ o : BitVec 5, o.toNat ∉ [1, 4, 5, 6, 15, 20, 21, 22, 24, 25, 26, 27, 28, 29, 30, 31] →
      (isParamOffset o || isIgnoredOffset o) = true := by decide
  unfold commandOfWrite
  split
  case h_1 h =>
    rw [← hat h (by decide)]
    have hv := extractLsb'_append_bit v
    split
    case isTrue hrun => rw [hrun] at hv; exact ⟨rfl, congrArg (fun v => some (1#5, v)) hv⟩
    case isFalse hrun =>
      rw [Bool.not_eq_true] at hrun
      rw [hrun] at hv; exact ⟨rfl, congrArg (fun v => some (1#5, v)) hv⟩
  case h_4 h =>
    rw [← hat h (by decide)]
    exact busWriteOf_commandOfCode v
  case h_17 =>
    refine ⟨hother o fun hmem => ?_, rfl⟩
    simp only [List.mem_cons, List.not_mem_nil, or_false] at hmem
    rcases hmem with h | h | h | h | h | h | h | h | h | h | h | h | h | h | h | h
    all_goals contradiction
  all_goals
    rename_i h
    exact ⟨rfl, congrArg (fun o => some (o, v)) (hat h (by decide))⟩

theorem readEdge_iff (before after : BusPins) :
    readEdge before after = true ↔
      before.rdLow = false ∧ before.wrLow = false ∧ after.csLow = true ∧ after.rdLow = true ∧ after.wrLow = false := by
  simp [readEdge, BusPins.reading, and_assoc]

theorem writeEdge_iff (before after : BusPins) :
    writeEdge before after = true ↔
      before.csLow = true ∧ before.wrLow = true ∧ before.rdLow = false ∧ after.wrLow = false ∧ after.rdLow = false := by
  simp [writeEdge, BusPins.writing, and_assoc]

theorem State.access_read {before after : BusPins} (hheld : s.resetHeld = false) (h : readEdge before after = true) :
    s.access before after = some (.read before.offset) := by
  rw [State.access, if_neg (by rw [hheld]; decide), busAccess, if_pos h]

theorem State.access_write {before after : BusPins} (hheld : s.resetHeld = false) (h : writeEdge before after = true) :
    s.access before after = some (.write before.offset before.data) := by
  have hread : ¬ readEdge before after = true := fun hread => by
    have hb := ((writeEdge_iff before after).mp h).2.1
    rw [((readEdge_iff before after).mp hread).2.1] at hb
    cases hb
  rw [State.access, if_neg (by rw [hheld]; decide), busAccess, if_neg hread, if_pos h]

theorem State.access_none {before after : BusPins} (hr : ¬ readEdge before after = true)
    (hw : ¬ writeEdge before after = true) : s.access before after = none := by
  rw [State.access, busAccess, if_neg hr, if_neg hw, ite_self]

/-- Outside the two edges no change of the pins is a command. -/
theorem State.busCommand_none {before after : BusPins} (hr : ¬ readEdge before after = true)
    (hw : ¬ writeEdge before after = true) : s.busCommand before after = none := by
  rw [State.busCommand, State.access_none hr hw]
  rfl

theorem reading_iff (p : BusPins) : p.reading = true ↔ p.csLow = true ∧ p.rdLow = true ∧ p.wrLow = false := by
  simp [BusPins.reading, and_assoc]

/-- At the fall of RD the register is presented. -/
theorem State.dataDriven_read {driven : Option Word} {before after : BusPins} (hheld : s.resetHeld = false)
    (hreading : after.reading = true) (h : readEdge before after = true) :
    s.dataDriven driven before after = some (s.readRegister before.offset) := by
  rw [State.dataDriven, if_neg (by rw [hheld, hreading]; decide), State.access_read hheld h]

/-- While the access lasts the word presented stands. -/
theorem State.dataDriven_lasting {driven : Option Word} {before after : BusPins} (hheld : s.resetHeld = false)
    (hreading : after.reading = true) (h : s.access before after = none) :
    s.dataDriven driven before after = driven := by
  rw [State.dataDriven, if_neg (by rw [hheld, hreading]; decide), h]

/-- A read of WIN_DATA leaves the word it was served with. -/
theorem State.readWindow_readData (s : State) : s.readWindow.readData = s.windowRead.getD 0#16 := by
  rw [State.readWindow]
  cases s.windowRead <;> rfl

/-- Settles O28: writes and commands agree, and an access is taken at its edge. -/
theorem busWritesAndCommandsAgree : Obligations.BusWritesAndCommandsAgree := by
  refine ⟨busWriteOf_commandOfWrite, fun s before after => ?_, fun s driven before after => ?_, fun s => ?_⟩
  · refine ⟨fun h => ?_, fun hb ha => ?_, fun hr hw => ?_, fun hr hw => ?_, fun hr hw => ?_, fun hheld =>
      ⟨fun hcs hw hw' hr hr' => ?_, fun hcs hr hr' hw hw' => ?_⟩⟩
    · rw [State.busCommand, State.access, if_pos h]
      rfl
    · exact State.busCommand_none (by simp [readEdge_iff, ha]) (by simp [writeEdge_iff, hb])
    · exact State.busCommand_none (by simp [readEdge_iff, hr]) (by simp [writeEdge_iff, hr])
    · exact State.busCommand_none (by simp [readEdge_iff, hw]) (by simp [writeEdge_iff, hw])
    · exact State.busCommand_none (by simp +contextual [readEdge_iff, hr]) (by simp +contextual [writeEdge_iff, hw])
    · rw [State.busCommand, State.access_write hheld ((writeEdge_iff _ _).mpr ⟨hcs, hw, hr, hw', hr'⟩)]
      rfl
    · rw [State.busCommand, State.access_read hheld ((readEdge_iff _ _).mpr ⟨hr, hw, hcs, hr', hw'⟩)]
      have hoffset : before.offset = 22#5 ↔ before.offset.toNat = 22 := BitVec.toNat_inj.symm
      simp only [Option.bind_some, commandOfAccess, commandOfRead, hoffset]
  · refine ⟨fun h => ?_, fun hheld hcs hr hw => ?_, fun hr hr' hw => ?_, rfl⟩
    · rw [State.dataDriven, if_pos]
      rcases h with h | h | h | h <;> simp [BusPins.reading, h]
    · have hreading := (reading_iff after).mpr ⟨hcs, hr, hw⟩
      refine ⟨fun hr' hw' => ?_, fun hr' => ?_⟩
      · exact State.dataDriven_read hheld hreading ((readEdge_iff _ _).mpr ⟨hr', hw', hcs, hr, hw⟩)
      · exact State.dataDriven_lasting hheld hreading
          (State.access_none (by simp [readEdge_iff, hr']) (by simp [writeEdge_iff, hr]))
    · refine State.busCommand_none ?_ (by simp [writeEdge_iff, hr'])
      rw [readEdge_iff]
      rintro ⟨-, hb, -, -, ha⟩
      exact hw (hb.trans ha.symm)
  · exact ⟨rfl, rfl, rfl, fun hheld => ⟨_, happens_of_effect State.readWindow hheld rfl rfl, s.readWindow_readData⟩⟩

end Sys2Proof.Machine
end

section
set_option Elab.async false
/-! PROOFS. The commands on records and the host's writes of the window's registers (O30 to O32, O34 to O36). -/

namespace Sys2Proof.Machine

open Sys2Proof.Safety

variable {s t u : State} {c : Instr}

/-! ### SEAL and FREE (R124, R125) -/

/-- A handle of 0 to 63 is judged by the state of its record. -/
theorem State.judgeRecord_of_handle {named : Byte} {h : Handle} (hn : h.val = named.toNat)
    (usable : RecordState → Bool) :
    s.judgeRecord named usable =
      if (s.record h).state = .free ∨ (s.record h).state = .arriving then .error .badRecord
      else if usable (s.record h).state then .ok h else .error .recordBusy := by
  simp only [State.judgeRecord, (handleOfByte_some _ _).mpr hn]

theorem State.judgeRecord_outOfRange {named : Byte} (hn : 63 < named.toNat) (usable : RecordState → Bool) :
    s.judgeRecord named usable = .error .badRecord := by
  simp only [State.judgeRecord, (handleOfByte_none _).mpr hn]

theorem refuses_sealRecord {r : Reason} (hheld : s.resetHeld = false)
    (h : s.judgeRecord s.paramHandle (· == .filling) = .error r) : Refuses .sealRecord s r :=
  refuses_of_error sealCommand hheld rfl (by rw [sealCommand, h])

theorem refuses_free {r : Reason} (hheld : s.resetHeld = false)
    (h : s.judgeRecord s.paramHandle (fun r => r == .filling || r == .ready) = .error r) : Refuses .free s r :=
  refuses_of_error freeCommand hheld rfl (by rw [freeCommand, h])

/-- Settles O30: each command by the state of the record it names. -/
theorem sealAndFreeJudgeTheRecord : Obligations.SealAndFreeJudgeTheRecord := by
  refine fun s hheld => ⟨fun hn => ?_, fun h hn => ⟨fun hs => ?_, fun hs => ?_, fun hs => ?_, fun hs => ?_, fun hs => ?_⟩⟩
  · exact ⟨refuses_sealRecord hheld (State.judgeRecord_outOfRange hn _),
      refuses_free hheld (State.judgeRecord_outOfRange hn _)⟩
  · exact ⟨refuses_sealRecord hheld ((State.judgeRecord_of_handle hn _).trans (if_pos hs)),
      refuses_free hheld ((State.judgeRecord_of_handle hn _).trans (if_pos hs))⟩
  · refine ⟨refuses_sealRecord hheld ((State.judgeRecord_of_handle hn _).trans ?_),
      refuses_free hheld ((State.judgeRecord_of_handle hn _).trans ?_)⟩
    all_goals rcases hs with hs | hs | hs <;> simp [hs]
  · refine refuses_sealRecord hheld ((State.judgeRecord_of_handle hn _).trans ?_)
    simp [hs]
  · refine accepts_of_ok sealCommand hheld rfl ?_
    have hjudge : s.judgeRecord s.paramHandle (· == .filling) = .ok h := by
      refine (State.judgeRecord_of_handle hn _).trans ?_
      simp [hs]
    rw [sealCommand, hjudge]
    rfl
  · have hjudge : s.judgeRecord s.paramHandle (fun r => r == .filling || r == .ready) = .ok h := by
      refine (State.judgeRecord_of_handle hn _).trans ?_
      rcases hs with hs | hs <;> simp [hs]
    refine ⟨s.freeRecord h, accepts_of_ok freeCommand hheld rfl (by rw [freeCommand, hjudge]), by simp,
      fun g hg => by simp [Ne.symm hg], s.freeRecord_returned h, (s.freeRecord_sameButStore h).inbound,
      (s.freeRecord_sameButStore h).sameOutsideStore⟩

/-! ### RELEASE and SET_MARKS (R132, R148) -/

theorem State.evalMarks_frame (s : State) :
    s.evalMarks = { s with
      store := { s.store with restraint := s.store.restraint.afterMarks s.store.low s.store.high s.freeCount }
      host := { s.host with
        restraintCause := s.host.restraintCause ||
          decide (s.store.restraint.afterMarks s.store.low s.store.high s.freeCount ≠ s.store.restraint) } } :=
  s.evalMarks_eq.trans (s.setRestraint_eq _)

/-- The registers that present the head of the Inbound List. -/
theorem State.inHead_of_cons {h : Handle} {rest : List Handle} (hl : s.inbound.list = h :: rest) :
    s.inHead = 0#2 ++ (s.record h).origin.setWidth 6 ++ 0#1 ++ BitVec.ofNat 6 h.val ++ 1#1 := by
  rw [State.inHead, hl]
  rfl

/-- Settles O31: the head of the Inbound List freed, the marks taken, and the registers that present them. -/
theorem releaseAndSetMarks : Obligations.ReleaseAndSetMarks := by
  refine ⟨fun s hheld => ⟨fun hl => ?_, fun h rest hl => ?_, fun hbad => ?_, fun hlow hlt hhigh => ?_⟩,
    fun s => ⟨BitVec.toNat_ofNat _ _, fun hl => ?_, fun h rest hl => ?_⟩⟩
  · exact refuses_of_error releaseCommand hheld rfl (by rw [releaseCommand, hl])
  · generalize ht : State.freeRecord { s with inbound := { s.inbound with list := rest } } h = t
    have hsame := State.freeRecord_sameButStore (s := { s with inbound := { s.inbound with list := rest } }) h
    rw [ht] at hsame
    refine ⟨t, accepts_of_ok releaseCommand hheld rfl (by rw [releaseCommand, hl, ← ht]), hsame.inbound, ?_,
      fun g hg => ?_, ?_, hsame.sameOutsideStore⟩
    · rw [← ht]; simp
    · rw [← ht]; simp [Ne.symm hg]
      rfl
    · rw [← ht]
      exact State.freeRecord_returned (s := { s with inbound := { s.inbound with list := rest } }) h
  · exact refuses_of_error setMarksCommand hheld rfl (if_neg (by omega))
  · refine ⟨_, accepts_of_ok setMarksCommand hheld rfl (if_pos ⟨hlow, hlt, hhigh⟩), ?_⟩
    rw [State.evalMarks_frame]
    exact ⟨rfl, rfl, rfl, rfl, rfl, rfl, rfl, rfl, rfl, rfl, rfl, rfl, rfl, rfl, rfl, rfl, rfl, rfl⟩
  · exact ⟨by change s.inHead = _; rw [State.inHead, hl], by change s.inLength = _; rw [State.inLength, hl]⟩
  · have hhead : s.readRegister 18#5 = _ := State.inHead_of_cons hl
    have hlength : s.readRegister 19#5 = 0#7 ++ BitVec.ofNat 9 (s.record h).length := by
      change s.inLength = _
      rw [State.inLength, hl]
    rw [hhead, hlength]
    refine ⟨?_, ?_, ?_, ?_, ?_, ?_⟩
    all_goals simp (disch := decide) only [HAppend.hAppend, toNat_zero_append, extractLsb'_append_low,
      extractLsb'_append_high, getLsbD_append_low, getLsbD_append_high, Nat.reduceSub, BitVec.extractLsb'_eq_self,
      BitVec.getLsbD_zero, BitVec.toNat_ofNat]
    · rfl
    · exact Nat.mod_eq_of_lt h.isLt

/-! ### A field alone in its register -/

theorem zero_append_eq_setWidth {n m : Nat} (x : BitVec m) : 0#n ++ x = x.setWidth (n + m) := by
  apply BitVec.eq_of_toNat_eq
  rw [BitVec.toNat_setWidth_of_le (Nat.le_add_left m n)]
  exact toNat_zero_append x

theorem lowByte_append (a b : Byte) : lowByte (a ++ b) = b :=
  (extractLsb'_append_low a b (by decide)).trans BitVec.extractLsb'_eq_self

theorem highByte_append (a b : Byte) : highByte (a ++ b) = a :=
  (extractLsb'_append_high a b (by decide)).trans BitVec.extractLsb'_eq_self

/-- The value with its lowest bit cleared. -/
theorem extractLsb'_append_zero (v : Word) : v.extractLsb' 1 15 ++ 0#1 = v &&& 0xFFFE#16 := by
  apply BitVec.eq_of_getLsbD_eq
  intro i hi
  rw [BitVec.getLsbD_append]
  interval_cases i <;> simp

/-! ### CONTROL, POLL_TIME and STATUS (R75, R174, R175) -/

/-- Where the timer is loaded at the start of a period (R75). -/
theorem Arbiter.startPeriod_eq (a : Arbiter) :
    a.startPeriod = { a with
      pollTimer :=
        if a.roundInProgress = false ∧ a.pollTimer.beats = 0#8 ∧ a.pollPeriod ≠ 0#8 then .load a.pollPeriod
        else a.pollTimer } := by
  have hrunning : (!a.pollTimer.running) = true ↔ a.pollTimer.beats = 0#8 := by
    simp [BeatTimer.running]
  rw [Arbiter.startPeriod]
  simp only [Bool.and_eq_true, Bool.not_eq_true', ← hrunning, bne_iff_ne, and_assoc]
  split <;> rfl

theorem State.writeControl_start (s : State) (w : BitVec 15) :
    s.writeControl (w ++ 1#1) = { s with
      host := { s.host with run := true }
      arbiter := if s.host.run then s.arbiter else s.arbiter.startPeriod } := by
  rw [State.writeControl, Laws.BusWrite.getLsbD_zero_append]
  cases s.host.run <;> rfl

theorem State.writeControl_stop (s : State) (w : BitVec 15) :
    s.writeControl (w ++ 0#1) = { s with host := { s.host with run := false } } := by
  rw [State.writeControl, Laws.BusWrite.getLsbD_zero_append]
  rfl

/-- Settles O32: the effects of both writes, and each field of the three registers in its place. -/
theorem runAndPollTime : Obligations.RunAndPollTime := by
  refine ⟨fun s hheld => ⟨fun w => ⟨fun hrun => ?_, fun hrun => ?_, ?_⟩, fun v => ⟨fun hv => ?_, fun hv => ?_⟩⟩,
    fun s => ⟨?_, ?_, ?_⟩⟩
  · refine happens_of_effect (·.writeControl (w ++ 1#1)) hheld rfl ?_
    rw [s.writeControl_start w, if_pos hrun, ← hrun]
  · refine happens_of_effect (·.writeControl (w ++ 1#1)) hheld rfl ?_
    rw [s.writeControl_start w, hrun, s.arbiter.startPeriod_eq]
    rfl
  · exact happens_of_effect (·.writeControl (w ++ 0#1)) hheld rfl (s.writeControl_stop w)
  · exact happens_of_effect (·.writePollTime v) hheld rfl (if_pos hv)
  · refine happens_of_effect (·.writePollTime v) hheld rfl ?_
    rw [State.writePollTime, if_neg hv]
    cases hrun : s.host.run
    · rfl
    · simp [Arbiter.startPeriod_eq, hv]
      rfl
  · change 0#15 ++ bit s.host.run = _
    cases s.host.run <;> rfl
  · exact zero_append_eq_setWidth s.arbiter.pollPeriod
  · change s.status.getLsbD 0 = _ ∧ s.status.getLsbD 1 = _ ∧ (s.status.getLsbD 2 = true ↔ _) ∧ s.status.getLsbD 3 = _ ∧
      (s.status.getLsbD 4 = true ↔ _) ∧ s.status.getLsbD 5 = _ ∧ s.status.extractLsb' 6 2 = _ ∧ _
    have hrestraint : s.store.restraint = .restrained ↔ s.store.restraint.code.getLsbD 0 = true := by
      cases s.store.restraint <;> decide
    have hlist : s.inbound.list ≠ [] ↔ (bit (!s.inbound.list.isEmpty)).getLsbD 0 = true := by
      cases s.inbound.list <;> simp [bit]
    have hkind : s.status.extractLsb' 6 2 = s.host.faultKind.code := by
      simp (disch := decide) only [State.status, HAppend.hAppend, extractLsb'_append_low, extractLsb'_append_high,
        Nat.reduceSub, BitVec.extractLsb'_eq_self]
    rw [hrestraint, hlist, hkind]
    refine ⟨?_, ?_, ?_, ?_, ?_, ?_, by cases s.host.faultKind <;> rfl, (?_ : highByte s.status = _)⟩
    all_goals simp (disch := decide) only [State.status, HAppend.hAppend, highByte, extractLsb'_append_high,
      getLsbD_append_low, getLsbD_append_high, Nat.reduceSub, BitVec.extractLsb'_eq_self,
      getLsbD_bit_zero]

/-! ### The Completion Queue's registers (R164 to R167) -/

theorem handleBits_toNat (h : Option Handle) : (handleBits h).toNat = (h.map Fin.val).getD 0 := by
  cases h with
  | none => rfl
  | some h => exact Nat.mod_eq_of_lt h.isLt

/-- Settles O34: the queue's happenings, and each field of its registers in its place. -/
theorem completionQueueHappenings : Obligations.CompletionQueueHappenings := by
  refine ⟨fun s hheld => ⟨fun v => ⟨fun hq => ?_, fun c hq => ?_, fun c d rest hq => ?_⟩, fun v => ?_, fun ht => ?_,
    fun ht => ?_⟩, fun s => ⟨?_, ?_, fun hq o ho => ?_, fun c rest hq => ?_⟩, rfl, rfl⟩
  · exact happens_of_effect State.removeCompletion hheld rfl (by rw [State.removeCompletion, hq]; rfl)
  · exact happens_of_effect State.removeCompletion hheld rfl (by rw [State.removeCompletion, hq]; rfl)
  · exact happens_of_effect State.removeCompletion hheld rfl (by rw [State.removeCompletion, hq]; rfl)
  · refine happens_of_effect (·.writeCoalesce v) hheld rfl ?_
    rw [State.writeCoalesce, CompletionQueue.evalWrite, CompletionQueue.atThreshold]
    dsimp only
    generalize (if 1 ≤ (v.extractLsb' 0 6).toNat ∧ (v.extractLsb' 0 6).toNat ≤ 32 then v.extractLsb' 0 6
      else s.queue.threshold) = threshold
    by_cases hreached : threshold.toNat ≤ s.queue.entries.length
    · simp [hreached]
    · by_cases hlinger : highByte v = 0#8 <;> simp [hreached, hlinger]
  · exact happens_of_effect State.lingerUp hheld rfl (if_pos ht)
  · refine happens_of_effect State.lingerUp hheld rfl ((if_neg ht).trans ?_)
    cases hq : s.queue.entries <;> simp [hq]
  · exact extractLsb'_zero_append s.queue.lingerTime s.queue.threshold (by decide)
  · refine (extractLsb'_append_high (s.queue.lingerTime ++ 0#2) s.queue.threshold (by decide)).trans ?_
    exact (extractLsb'_append_high s.queue.lingerTime 0#2 (by decide)).trans BitVec.extractLsb'_eq_self
  · have hzero : s.cqTag = 0#16 ∧ s.cqInfo = 0#16 ∧ s.cqDetail = 0#16 ∧ s.cqExtent = 0#16 := by
      simp [State.cqTag, State.cqInfo, State.cqDetail, State.cqExtent, hq]
    obtain ⟨htag, hinfo, hdetail, hextent⟩ := hzero
    simp only [List.mem_cons, List.not_mem_nil, or_false] at ho
    obtain rfl | rfl | rfl | rfl := ho
    · exact htag
    · exact hinfo
    · exact hdetail
    · exact hextent
  · have hinfo : s.readRegister 15#5 =
        0#4 ++ bit c.handle.isSome ++ c.attempts ++ c.outcome.code ++ c.kind.code ++ 1#1 := by
      change s.cqInfo = _
      rw [State.cqInfo, hq]
    have hdetail : s.readRegister 16#5 = 0#2 ++ c.address.setWidth 6 ++ c.detail := by
      change s.cqDetail = _
      rw [State.cqDetail, hq]
    have hextent : s.readRegister 17#5 = 0#1 ++ handleBits c.handle ++ BitVec.ofNat 9 c.extent := by
      change s.cqExtent = _
      rw [State.cqExtent, hq]
    have htag : s.readRegister 14#5 = c.tag := by
      change s.cqTag = _
      rw [State.cqTag, hq]
    rw [hinfo, hdetail, hextent, htag]
    refine ⟨rfl, ?_, ?_, ?_, ?_, ?_, ?_, ?_, ?_, ?_, ?_, ?_, ?_⟩
    all_goals simp (disch := decide) only [HAppend.hAppend, lowByte, extractLsb'_append_low,
      extractLsb'_append_high, getLsbD_append_low, getLsbD_append_high, Nat.reduceSub, BitVec.extractLsb'_eq_self,
      getLsbD_bit_zero, BitVec.toNat_ofNat, handleBits_toNat, BitVec.getLsbD_zero]
    · rfl

/-! ### The setup registers (R52, R76, R81, R100, R176) -/

/-- Settles O35: each field by its range, and the value in force read back. -/
theorem setupFieldsTakeValuesInRange : Obligations.SetupFieldsTakeValuesInRange := by
  refine fun s v hheld => ⟨?_, ?_, ?_, ?_, ?_, ?_, ?_, ?_, ?_, ?_, ?_, ?_, ?_, ?_, ?_, ?_⟩
  · refine happens_of_effect (·.writeRate v) hheld rfl ?_
    rw [State.writeRate]
    split <;> rfl
  · refine happens_of_effect (·.writeLineTimes v) hheld rfl ?_
    simp only [State.writeLineTimes, Nat.lt_succ_iff]
  · refine happens_of_effect (·.writeReplyTime v) hheld rfl ?_
    simp only [State.writeReplyTime, Nat.lt_succ_iff]
  · exact happens_of_effect (·.writeProbeSetup v) hheld rfl rfl
  · exact happens_of_effect (·.writeBackoff v) hheld rfl rfl
  · exact happens_of_effect (fun t => { t with host := { t.host with winSelect := lowByte v } }) hheld rfl rfl
  · refine happens_of_effect (fun t => { t with host := { t.host with winOffset := v.extractLsb' 1 15 ++ 0#1 } })
      hheld rfl ?_
    rw [extractLsb'_append_zero]
  · exact zero_append_eq_setWidth s.line.rate
  · exact extractLsb'_zero_append (0#4 ++ s.line.gapTime) s.line.guardTime (by decide)
  · refine (extractLsb'_append_high (0#4 ++ s.line.gapTime ++ 0#4) s.line.guardTime (by decide)).trans ?_
    refine (extractLsb'_append_high (0#4 ++ s.line.gapTime) 0#4 (by decide)).trans ?_
    exact BitVec.extractLsb'_eq_self.trans (zero_append_eq_setWidth s.line.gapTime)
  · exact zero_append_eq_setWidth s.line.replyTimeout
  · exact lowByte_append _ _
  · exact highByte_append _ _
  · exact zero_append_eq_setWidth s.table.holdBackoff
  · exact zero_append_eq_setWidth s.host.winSelect
  · rfl

/-! ### A read of WIN_DATA (R177) -/

theorem State.windowRead_of_handle {h : Handle} (hsel : h.val = s.host.winSelect.toNat) :
    s.windowRead =
      if (s.record h).state ≠ .free ∧ (s.record h).state ≠ .arriving ∧ s.host.winOffset.toNat ≤ (s.record h).length
      then some (s.recordByte h (s.host.winOffset.toNat + 1) ++ s.recordByte h s.host.winOffset.toNat) else none := by
  rw [State.windowRead, State.windowRecord, (handleOfByte_some _ _).mpr hsel]
  cases hs : (s.record h).state <;> simp [hs]

theorem State.readWindow_none (h : s.windowRead = none) :
    s.readWindow = { s with
      readData := 0#16
      host := { s.host with
        hostFault := true, faultKind := .windowRead, winOffset := s.host.winOffset + 2#16 } } := by
  rw [State.readWindow, h]
  rfl

theorem State.readWindow_some {w : Word} (h : s.windowRead = some w) :
    s.readWindow = { s with readData := w, host := { s.host with winOffset := s.host.winOffset + 2#16 } } := by
  rw [State.readWindow, h]
  rfl

/-- Byte `k` of a record, by its place in the chain (R120). -/
theorem State.recordByte_eq (s : State) (h : Handle) (k : Nat) :
    s.recordByte h k =
      if k < (s.record h).length then
        match (s.record h).chain[k / 32]? with
        | some b => readByte s.store.bytes (32 * b.val + k % 32)
        | none => 0#8
      else 0#8 := by
  rw [State.recordByte, State.recordAddress, Config.blockBytes]
  cases (s.record h).chain[k / 32]? with
  | none => rfl
  | some b => simp only [Option.map_some, blockAddress, Config.blockBytes, Nat.mul_comm]

/-- Settles O36: the word presented where the record can be read, and the fault where it cannot. -/
theorem windowReads : Obligations.WindowReads := by
  refine fun s hheld => ⟨fun hsel => ?_, fun h hsel => ⟨fun hd => ?_, fun hfree harriving hlength => ?_⟩⟩
  · refine happens_of_effect State.readWindow hheld rfl (State.readWindow_none ?_)
    rw [State.windowRead, State.windowRecord, (handleOfByte_none _).mpr hsel]
  · refine happens_of_effect State.readWindow hheld rfl (State.readWindow_none ?_)
    rw [State.windowRead_of_handle hsel]
    exact if_neg fun hread => by
      rcases hd with hd | hd | hd
      · exact hread.1 hd
      · exact hread.2.1 hd
      · omega
  · refine happens_of_effect State.readWindow hheld rfl (State.readWindow_some ?_)
    refine (State.windowRead_of_handle hsel).trans ((if_pos ⟨hfree, harriving, hlength⟩).trans ?_)
    exact congrArg some (congrArg₂ (fun high low : Byte => high ++ low) (s.recordByte_eq h _) (s.recordByte_eq h _))

end Sys2Proof.Machine
end

section
set_option Elab.async false
/-! PROOFS. LINE_ABORT (O26). -/

namespace Sys2Proof.Machine

open Sys2Proof.Safety

variable {s t u : State} {c : Instr} {x : Exchange}

/-! ### What the abort does to the exchange in flight (R44, R45) -/

theorem State.slot_congr (h : t.command = s.command) : t.slot = s.slot :=
  funext fun i => by rw [State.slot, h]; rfl

theorem State.entry_congr (h : t.table = s.table) (i : EntryId) : t.entry i = s.entry i := by
  rw [State.entry, h]; rfl

theorem State.record_congr (h : t.store = s.store) (g : Handle) : t.record g = s.record g := by
  rw [State.record, h]; rfl

theorem State.setEntry_self (s : State) (e : EntryId) : s.setEntry e (s.entry e) = s := by
  simp [State.setEntry, State.entry]

/-- An aborted attempt is no failure: nothing is counted (R104). -/
theorem State.report_aborted (s : State) (p : Place) : s.report p .aborted = s := by
  rcases s.report_cases p .aborted with ⟨-, h⟩ | ⟨e, -, ⟨hf, -⟩ | ⟨-, h⟩⟩
  · exact h
  · cases hf
  · exact h.trans (s.setEntry_self e)

theorem State.abortExchange_eq (hx : s.exchange = some x) :
    s.abortExchange = ((s.abortPhase x.phase).needSync x.place).closePending x := by
  rw [State.abortExchange, hx]
  dsimp only
  rw [State.report_aborted]

/-- The station aborted needs a SYNC, and nothing else of the table changes. -/
theorem State.needSync_after (s : State) (p : Place) :
    s.needSync p = { s with table := { s.table with entries := (s.needSync p).table.entries } } ∧
      ∀ i, (s.needSync p).entry i = if p = .station i then { s.entry i with syncNeeded := true } else s.entry i := by
  cases p with
  | broadcast => exact ⟨rfl, fun i => by simp [State.needSync]⟩
  | station e =>
    refine ⟨rfl, fun i => ?_⟩
    rw [State.needSync, State.entry_setEntry]
    by_cases h : e = i
    · subst h; simp
    · simp [h]

/-- The exchange `x` has ended with its command pending and its station in need of a SYNC; nothing else has changed
(R31, R44, R128). -/
structure Abandoned (u t : State) (x : Exchange) : Prop where
  exchange : t.exchange = none
  queue : t.queue = u.queue
  command : t.command = u.command
  arbiter : t.arbiter = u.arbiter
  host : t.host = u.host
  table : t.table = { u.table with entries := t.table.entries }
  lastClose : t.lastClose = u.lastClose
  resetHeld : t.resetHeld = u.resetHeld
  readData : t.readData = u.readData
  pending : t.pending = u.pending
  line : t.line = u.line
  inbound : t.inbound = u.inbound
  blocks : SameBlocks u t
  entry : ∀ i, t.entry i = if x.place = .station i then { u.entry i with syncNeeded := true } else u.entry i
  record : ∀ h, t.record h = if (x.slot.bind u.slot).bind Slot.handle = some h ∧ (u.record h).state = .sending
    then { u.record h with state := .queued } else u.record h

theorem State.abortExchange_abandoned (hx : s.exchange = some x) :
    Abandoned (s.abortPhase x.phase) s.abortExchange x := by
  rw [State.abortExchange_eq hx]
  generalize s.abortPhase x.phase = u
  obtain ⟨hsync, hentry⟩ := u.needSync_after x.place
  obtain ⟨hclose, hrecord⟩ := (u.needSync x.place).closePending_eq x
  generalize u.needSync x.place = v at *
  generalize v.closePending x = t at *
  have hslot (i : SlotId) : v.slot i = u.slot i := by rw [hsync]; rfl
  have hstore (h : Handle) : v.record h = u.record h := by rw [hsync]; rfl
  have hframe : t = { u with
      exchange := none
      table := { u.table with entries := v.table.entries }
      store := { u.store with descriptors := t.store.descriptors } } := hclose.trans (by rw [hsync])
  have htable : t.table = { u.table with entries := v.table.entries } := congrArg State.table hframe
  refine ⟨by rw [hframe], by rw [hframe], by rw [hframe], by rw [hframe], by rw [hframe],
    htable.trans (by rw [htable]), by rw [hframe], by rw [hframe], by rw [hframe], by rw [hframe], by rw [hframe],
    by rw [hframe], by rw [hframe]; exact ⟨rfl, rfl, rfl, rfl, rfl⟩, fun i => ?_, fun h => ?_⟩
  · rw [← hentry i, State.entry, State.entry, htable]
  · rw [hrecord h, hstore h, funext hslot]

/-- While a reply is awaited or received the choice and the report of a quiet line do nothing. -/
theorem State.settle_of_awaitsReply (h : s.awaitsReply = true) : s.settle = s.callChoice := by
  obtain ⟨x, hx, hphase⟩ := s.awaitsReply_iff.mp h
  rw [s.settle_of_exchange x hx, State.callChoice_engaged (.inl (by rw [Option.mem_def.mp hx]; exact nofun))]
  rcases s.reportQuiet_cases with ⟨y, -, hy, hp, -⟩ | ⟨y, -, hy, hp, -⟩ | ⟨-, e⟩
  · obtain rfl : x = y := Option.some.inj (hx.symm.trans hy)
    rcases hphase with k | k <;> cases hp.symm.trans k
  · obtain rfl : x = y := Option.some.inj (hx.symm.trans hy)
    rcases hphase with k | k <;> cases hp.symm.trans k
  · exact e

/-- A LINE_ABORT that leaves the state as it is ends as every command does. -/
theorem accepts_lineAbort_unchanged (hheld : s.resetHeld = false)
    (h : (if s.lastClose.isSome then s else s.abortExchange) = s) : Accepts .lineAbort s s 0#6 := by
  rcases execLineAbort_cases (s := s) with ⟨hr, -⟩ | ⟨-, hw, e⟩ | ⟨-, -, e⟩
  · rw [hheld] at hr; cases hr
  · rw [h] at e
    refine e.trans ?_
    rw [State.finishCommandWait, ← State.settle_of_awaitsReply (s := s.accept 0#6) hw]
    rfl
  · rw [h] at e
    exact e

theorem State.cutTransmission_frame (s : State) : s.cutTransmission = { s with line := s.cutTransmission.line } := by
  rw [State.cutTransmission]
  split <;> rfl

/-- What the abort does on the line and to the arrival, by the phase (R45). -/
theorem State.abortPhase_line {p : Phase} (hp : p ≠ .receiveReply) :
    s.abortPhase p = { s with line := (s.abortPhase p).line } := by
  cases p with
  | receiveReply => exact absurd rfl hp
  | guard => rfl
  | answerGuard => rfl
  | awaitReply => rfl
  | transmit => exact s.cutTransmission_frame
  | answer => exact s.cutTransmission_frame

theorem State.abortPhase_receiving (s : State) :
    s.abortPhase .receiveReply = { s.discardArrival with line := (s.abortPhase .receiveReply).line } ∧
      ∀ f, s.line.rx = .frame f →
        (s.abortPhase .receiveReply).line = { s.line with rx := .frame { f with dest := .stray } } := by
  obtain ⟨-, -, -, -, -, -, hline, -⟩ := s.discardArrival_discarded
  rw [State.abortPhase]
  dsimp only
  rw [hline]
  refine ⟨?_, fun f hf => ?_⟩
  · split <;> rfl
  · rw [hf]
    dsimp only [State.setReceiver]
    rw [hline]

/-- Where an exchange is in flight the command ends as the wait for a reply ends, or as every command does (R44). -/
theorem execLineAbort_of_exchange (hheld : s.resetHeld = false) (hclose : s.lastClose = none)
    (hx : s.exchange = some x) :
    (x.phase = .awaitReply ∨ x.phase = .receiveReply → AcceptsAndEndsWait .lineAbort s s.abortExchange 0#6) ∧
      (x.phase ≠ .awaitReply → x.phase ≠ .receiveReply → Accepts .lineAbort s s.abortExchange 0#6) := by
  have hcommand : (if s.lastClose.isSome then s else s.abortExchange) = s.abortExchange := by
    rw [hclose]
    rfl
  rcases execLineAbort_cases (s := s) with ⟨hr, -⟩ | ⟨-, hw, e⟩ | ⟨-, hw, e⟩
  · rw [hheld] at hr; cases hr
  · rw [hcommand] at e
    refine ⟨fun _ => e, fun hawait hreceive => ?_⟩
    obtain ⟨y, hy, hp⟩ := s.awaitsReply_iff.mp hw
    obtain rfl : x = y := Option.some.inj (Eq.trans (Eq.symm hx) hy)
    exact hp.elim (absurd · hawait) (absurd · hreceive)
  · rw [hcommand] at e
    refine ⟨fun hp => ?_, fun _ _ => e⟩
    rw [s.awaitsReply_iff.mpr ⟨x, hx, hp⟩] at hw
    cases hw

/-- Settles O26: what the abort does by phase, and what it leaves alone. -/
theorem abortEndsTheExchange : Obligations.AbortEndsTheExchange := by
  refine fun s hheld => ⟨fun hx => ?_, fun c hc => ?_, fun x hx hclose => ⟨s.abortExchange, ?_⟩⟩
  · refine accepts_lineAbort_unchanged hheld ?_
    rw [State.abortExchange, hx, ite_self]
  · exact accepts_lineAbort_unchanged hheld (if_pos (by rw [Option.mem_def.mp hc]; rfl))
  obtain ⟨hwaiting, hother⟩ := execLineAbort_of_exchange hheld hclose hx
  refine ⟨hwaiting, hother, ?_⟩
  have ht := State.abortExchange_abandoned hx
  generalize s.abortExchange = t at ht
  by_cases hreceive : x.phase = .receiveReply
  · rw [hreceive] at ht
    obtain ⟨hline, hstray⟩ := s.abortPhase_receiving
    obtain ⟨hinbound, hxd, hcmd, hqueue, htable, harbiter, -, hlast, hreset, hread, hpending, hkept, hfreed⟩ :=
      s.discardArrival_discarded
    generalize s.abortPhase .receiveReply = u at ht hline hstray
    generalize s.discardArrival = d at hinbound hcmd hqueue htable harbiter hlast hreset hread hpending hkept hfreed hline
    have hslot : u.slot = s.slot := by rw [hline]; exact State.slot_congr hcmd
    have hblocks : SameBlocks d t := by
      have h := ht.blocks
      rwa [show SameBlocks u t = SameBlocks d t by rw [hline]] at h
    have hhost : t.host = d.host := ht.host.trans (by rw [hline])
    have hrecord (h : Handle) : t.record h = if (x.slot.bind s.slot).bind Slot.handle = some h ∧
        (d.record h).state = .sending then { d.record h with state := .queued } else d.record h := by
      rw [ht.record h, hslot, hline]; rfl
    have hkeeps : t.host.run = s.host.run ∧ t.host.stationLost = s.host.stationLost := by
      rw [hhost]
      cases harrival : s.inbound.arrival.bind Arrival.handle with
      | none => rw [(hkept harrival).2]; exact ⟨rfl, rfl⟩
      | some g =>
        obtain ⟨-, -, -, -, -, -, -, hlatch⟩ := hfreed g harrival
        rw [hlatch]
        exact ⟨rfl, rfl⟩
    refine ⟨ht.exchange, ht.queue.trans (by rw [hline, hqueue]), ht.command.trans (by rw [hline, hcmd]),
      ht.arbiter.trans (by rw [hline, harbiter]), hkeeps.1, hkeeps.2,
      ht.table.trans (by rw [hline, htable]), ht.lastClose.trans (by rw [hline, hlast]),
      ht.resetHeld.trans (by rw [hline, hreset]), ht.readData.trans (by rw [hline, hread]),
      ht.pending.trans (by rw [hline, hpending]), fun i => ?_, fun h => absurd hreceive h, fun hp => ?_, fun hp => ?_,
      fun hp => ?_, fun _ => ⟨ht.inbound.trans (by rw [hline, hinbound]), fun h => ?_, fun h hh => ?_, fun hnone => ?_,
        fun f hf => ht.line.trans (hstray f hf)⟩⟩
    · have hentry : u.entry i = s.entry i := by rw [hline]; exact State.entry_congr htable i
      rw [ht.entry i, hentry]
    · rcases hp with hp | hp <;> cases hreceive.symm.trans hp
    · cases hreceive.symm.trans hp
    · rcases hp with hp | hp <;> cases hreceive.symm.trans hp
    · rw [hrecord h]
      cases harrival : s.inbound.arrival.bind Arrival.handle with
      | none => rw [State.record_congr (hkept harrival).1, if_neg (c := none = some h) nofun]
      | some g =>
        obtain ⟨hfree, hother, -⟩ := hfreed g harrival
        by_cases hg : g = h
        · subst hg
          rw [hfree, if_pos rfl, if_neg fun k => nomatch k.2]
        · rw [hother h (Ne.symm hg), if_neg fun k => hg (Option.some.inj k)]
    · obtain ⟨hfree, hbytes, hlow, hhigh, hrestraint, hlatch⟩ := (hfreed h hh).2.2
      obtain ⟨hf', hb', hl', hh', hr'⟩ := hblocks
      refine ⟨hf'.trans hfree, hb'.trans hbytes, hl'.trans hlow, hh'.trans hhigh, hr'.trans hrestraint, ?_⟩
      rw [hhost, hr', hlatch]
    · rw [hhost, (hkept hnone).2]
      refine ⟨?_, rfl⟩
      rwa [show SameBlocks d t = SameBlocks s t by rw [SameBlocks, (hkept hnone).1]] at hblocks
  · have hu := State.abortPhase_line (s := s) hreceive
    generalize hphase : s.abortPhase x.phase = u at ht hu
    have hslot : u.slot = s.slot := by rw [hu]; rfl
    refine ⟨ht.exchange, ht.queue.trans (by rw [hu]), ht.command.trans (by rw [hu]),
      ht.arbiter.trans (by rw [hu]), congrArg HostWindow.run (ht.host.trans (by rw [hu])),
      congrArg HostWindow.stationLost (ht.host.trans (by rw [hu])), ht.table.trans (by rw [hu]),
      ht.lastClose.trans (by rw [hu]), ht.resetHeld.trans (by rw [hu]),
      ht.readData.trans (by rw [hu]), ht.pending.trans (by rw [hu]), fun i => ?_,
      fun _ => ⟨?_, ht.host.trans (by rw [hu]), ht.inbound.trans (by rw [hu]), fun h => ?_⟩,
      fun hp => ⟨?_, ht.inbound.trans (by rw [hu])⟩, fun hp => ⟨?_, ht.inbound.trans (by rw [hu])⟩,
      fun hp hrx => ⟨?_, ht.inbound.trans (by rw [hu])⟩, fun h => absurd h hreceive⟩
    · rw [ht.entry i, hu]; rfl
    · have hblocks := ht.blocks
      rwa [show SameBlocks u t = SameBlocks s t by rw [hu]] at hblocks
    · rw [ht.record h, hslot, hu]; rfl
    · rw [ht.line, ← hphase]
      rcases hp with hp | hp <;> rw [hp] <;> rfl
    · rw [ht.line, ← hphase, hp]
      rfl
    · rw [ht.line, ← hphase]
      rcases hp with hp | hp <;> rw [hp] <;> exact congrArg State.line (s.cutTransmission_eq hrx)

end Sys2Proof.Machine
end

section
set_option Elab.async false
/-! PROOFS. A frame on the wire: the transmitter sends it, and the decoder follows it (O39, O40). -/

namespace Sys2Proof.Machine

open Sys2Proof.Safety

variable {s t u : State} {c : Instr} {x : Exchange}

/-! ### The coding of a frame (R82 to R84) -/

theorem reserved_iff (v : Byte) : reserved v = true ↔ v = 0xE0#8 ∨ v = 0xE1#8 ∨ v = 0xE2#8 := by
  simp [reserved, Config.marker, Config.endMark, Config.shift, or_assoc]

theorem codeByte_eq (v : Byte) : codeByte v = onTheWire v := by
  simp only [codeByte, onTheWire, reserved_iff, Config.shift, Config.shiftMask]

theorem checkXor_append (l : List Byte) (v : Byte) : checkXor (l ++ [v]) = checkXor l ^^^ v := by
  simp [checkXor]

theorem checkXor_eq (body : List Byte) : checkXor body = body.foldr (· ^^^ ·) 0#8 :=
  List.foldl_eq_foldr

/-- The sum of a list of bytes, modulo 256. -/
theorem foldl_add_eq (body : List Byte) (n : Byte) :
    body.foldl (· + ·) n = n + BitVec.ofNat 8 (body.map BitVec.toNat).sum := by
  induction body generalizing n with
  | nil => simp
  | cons v body ih =>
    rw [List.foldl_cons, ih, List.map_cons, List.sum_cons, BitVec.ofNat_add, BitVec.ofNat_toNat, BitVec.setWidth_eq,
      BitVec.add_assoc]

theorem checkSum_eq (body : List Byte) :
    checkSum body = BitVec.ofNat 8 ((body.map BitVec.toNat).sum + body.length) := by
  rw [checkSum, foldl_add_eq, BitVec.zero_add, BitVec.ofNat_add]

/-- The run of characters of the model is the run on the wire. -/
theorem frameCharacters_eq (body : List Byte) : frameCharacters body = wireFrame body := by
  have hcode : codeByte = onTheWire := funext codeByte_eq
  simp [frameCharacters, wireFrame, hcode, checkXor_eq, checkSum_eq, Config.marker, Config.endMark]

/-! ### The transmitter (R86, R87) -/

/-- The body bytes of a frame before the checks, as the encoder reads them. -/
def State.frameBody (s : State) (f : OutFrame) : List Byte :=
  [f.dest, 0#8, f.ctrl] ++ (List.range f.payload.length).map (s.payloadByte f.payload)

/-- A body followed by its two check bytes. -/
def withChecks (body : List Byte) : List Byte := body ++ [checkXor body, checkSum body]

theorem State.frameBody_length (s : State) (f : OutFrame) : (s.frameBody f).length = 3 + f.payload.length := by
  rw [State.frameBody, List.length_append, List.length_map, List.length_range]
  rfl

/-- The transmission is sending the frame's characters, the encoder's running values those of the bytes coded. -/
structure Sending (s : State) (f : OutFrame) (t : Transmission) : Prop where
  frame : t.frame = f
  isEnd : t.isEnd = false
  coded : t.coded ≤ (s.frameBody f).length + 2
  accXor : t.accXor = checkXor ((s.frameBody f).take t.coded)
  accSum : t.accSum = ((s.frameBody f).take t.coded).foldl (· + ·) 0#8
  accCount : t.accCount = BitVec.ofNat 8 ((s.frameBody f).take t.coded).length

/-- The characters still to be sent. -/
def State.remaining (s : State) (f : OutFrame) (t : Transmission) : List Byte :=
  t.shifted.toList ++ ((withChecks (s.frameBody f)).drop t.coded).flatMap codeByte ++ [Config.endMark]

theorem sending_begin (s : State) (f : OutFrame) (d : BitVec 12) : Sending s f (f.begin d) :=
  ⟨rfl, rfl, Nat.zero_le _, rfl, rfl, rfl⟩

/-- The characters of the whole frame are the Marker and those still to be sent behind it. -/
theorem remaining_begin (s : State) (f : OutFrame) (d : BitVec 12) :
    (f.begin d).current :: s.remaining f (f.begin d) = frameCharacters (s.frameBody f) := rfl

/-- The byte coded next is the frame's: a body byte, or a check of the whole body. -/
theorem Sending.bodyByte {f : OutFrame} {t : Transmission} (h : Sending s f t)
    (hk : t.coded < (s.frameBody f).length + 2) :
    (withChecks (s.frameBody f))[t.coded]? = some (s.bodyByte t t.coded) := by
  have hlength := s.frameBody_length f
  by_cases hbody : t.coded < (s.frameBody f).length
  · rw [withChecks, List.getElem?_append_left hbody, State.bodyByte, h.frame, State.frameBody]
    obtain h0 | h1 | h2 | ⟨k, h3⟩ : t.coded = 0 ∨ t.coded = 1 ∨ t.coded = 2 ∨ ∃ k, t.coded = k + 3 := by
      by_cases hk : t.coded < 3
      · omega
      · exact .inr (.inr (.inr ⟨t.coded - 3, by omega⟩))
    · simp [h0]
    · simp [h1]
    · simp [h2]
    · have hpayload : k < f.payload.length := by omega
      have : k + 3 < 3 + f.payload.length := by omega
      simp [h3, hpayload, this]
  · have htake : (s.frameBody f).take t.coded = s.frameBody f := List.take_of_length_le (Nat.not_lt.mp hbody)
    have haccXor := h.accXor
    have haccSum := h.accSum
    have haccCount := h.accCount
    rw [htake] at haccXor haccSum haccCount
    rw [withChecks, List.getElem?_append_right (Nat.not_lt.mp hbody), State.bodyByte, h.frame, haccXor, haccSum,
      haccCount, hlength]
    obtain hfirst | hlast : t.coded = 3 + f.payload.length ∨ t.coded = 3 + f.payload.length + 1 := by omega
    · have h1 : 3 + f.payload.length ≠ 1 := by omega
      have h2 : 3 + f.payload.length ≠ 2 := by omega
      simp [hfirst, h1, h2]
    · have h2 : 3 + f.payload.length + 1 ≠ 2 := by omega
      have h3 : ¬ 3 + f.payload.length + 1 < 3 + f.payload.length := by omega
      simp [hlast, h2, h3, checkSum, hlength]

theorem nextCharacter_shifted {t : Transmission} {v : Byte} (h : t.shifted = some v) :
    s.nextCharacter t = { t with current := v, isEnd := false, shifted := none, divisor := s.line.rate } := by
  rw [State.nextCharacter, h]

theorem nextCharacter_end {t : Transmission} (h : t.shifted = none) (hk : ¬ t.coded < 3 + t.frame.payload.length + 2) :
    s.nextCharacter t = { t with current := Config.endMark, isEnd := true, divisor := s.line.rate } := by
  rw [State.nextCharacter, h]
  exact if_neg hk

theorem nextCharacter_coded {t : Transmission} (h : t.shifted = none) (hk : t.coded < 3 + t.frame.payload.length + 2) :
    s.nextCharacter t = { t with
      current := if reserved (s.bodyByte t t.coded) then Config.shift else s.bodyByte t t.coded
      isEnd := false
      shifted := if reserved (s.bodyByte t t.coded) then some (s.bodyByte t t.coded ^^^ Config.shiftMask) else none
      coded := t.coded + 1
      accXor := if t.coded < 3 + t.frame.payload.length then t.accXor ^^^ s.bodyByte t t.coded else t.accXor
      accSum := if t.coded < 3 + t.frame.payload.length then t.accSum + s.bodyByte t t.coded else t.accSum
      accCount := if t.coded < 3 + t.frame.payload.length then t.accCount + 1#8 else t.accCount
      divisor := s.line.rate } := by
  rw [State.nextCharacter, h]
  simp only [if_pos hk]

/-- Coding a body byte keeps the running values those of the bytes coded. -/
theorem Sending.coded_succ {f : OutFrame} {t : Transmission} (h : Sending s f t) (hnone : t.shifted = none)
    (hk : t.coded < (s.frameBody f).length + 2) : Sending s f (s.nextCharacter t) := by
  have hlength := s.frameBody_length f
  have hbyte := h.bodyByte hk
  have hcoded : t.coded < 3 + t.frame.payload.length + 2 := by rw [h.frame]; omega
  rw [nextCharacter_coded hnone hcoded]
  by_cases hbody : t.coded < 3 + t.frame.payload.length
  · have hin : t.coded < (s.frameBody f).length := by rw [h.frame] at hbody; omega
    have hnext : (s.frameBody f).take (t.coded + 1) = (s.frameBody f).take t.coded ++ [s.bodyByte t t.coded] := by
      rw [withChecks, List.getElem?_append_left hin] at hbyte
      rw [List.take_add_one, hbyte]
      rfl
    refine ⟨h.frame, rfl, Nat.succ_le_of_lt hk, ?_, ?_, ?_⟩
    · simp only [if_pos hbody, hnext, checkXor_append, h.accXor]
    · simp only [if_pos hbody, hnext, List.foldl_append, h.accSum]
      rfl
    · simp only [if_pos hbody, hnext, List.length_append, h.accCount]
      rw [BitVec.ofNat_add]
      rfl
  · have hout : (s.frameBody f).length ≤ t.coded := by rw [h.frame] at hbody; omega
    have hnext : (s.frameBody f).take (t.coded + 1) = (s.frameBody f).take t.coded := by
      rw [List.take_of_length_le hout, List.take_of_length_le (Nat.le_succ_of_le hout)]
    refine ⟨h.frame, rfl, Nat.succ_le_of_lt hk, ?_, ?_, ?_⟩
    · simp only [if_neg hbody, hnext, h.accXor]
    · simp only [if_neg hbody, hnext, h.accSum]
    · simp only [if_neg hbody, hnext, h.accCount]

/-- The next character is the first of those still to be sent, and the End is the last. -/
theorem Sending.step {f : OutFrame} {t : Transmission} (h : Sending s f t) {c : Byte} {rest : List Byte}
    (hr : s.remaining f t = c :: rest) :
    (s.nextCharacter t).current = c ∧
      ((rest = [] ∧ (s.nextCharacter t).isEnd = true) ∨
        (Sending s f (s.nextCharacter t) ∧ s.remaining f (s.nextCharacter t) = rest)) := by
  have hlength := s.frameBody_length f
  cases hshifted : t.shifted with
  | some v =>
    rw [State.remaining, hshifted] at hr
    obtain ⟨rfl, rfl⟩ := List.cons.inj hr
    rw [nextCharacter_shifted hshifted]
    exact ⟨rfl, .inr ⟨⟨h.frame, rfl, h.coded, h.accXor, h.accSum, h.accCount⟩, rfl⟩⟩
  | none =>
    by_cases hk : t.coded < (s.frameBody f).length + 2
    · have hnext := h.coded_succ hshifted hk
      have hcoded : t.coded < 3 + t.frame.payload.length + 2 := by rw [h.frame]; omega
      have hdrop : (withChecks (s.frameBody f)).drop t.coded =
          s.bodyByte t t.coded :: (withChecks (s.frameBody f)).drop (t.coded + 1) := by
        obtain ⟨hlt, hget⟩ := List.getElem?_eq_some_iff.mp (h.bodyByte hk)
        rw [List.drop_eq_getElem_cons hlt, hget]
      rw [State.remaining, hshifted, hdrop] at hr
      have hcurrent : (s.nextCharacter t).current =
          if reserved (s.bodyByte t t.coded) then Config.shift else s.bodyByte t t.coded := by
        rw [nextCharacter_coded hshifted hcoded]
      have hpending : s.remaining f (s.nextCharacter t) =
          (if reserved (s.bodyByte t t.coded) then some (s.bodyByte t t.coded ^^^ Config.shiftMask) else none).toList ++
            ((withChecks (s.frameBody f)).drop (t.coded + 1)).flatMap codeByte ++ [Config.endMark] := by
        rw [nextCharacter_coded hshifted hcoded]
        rfl
      rw [hcurrent, hpending]
      cases hres : reserved (s.bodyByte t t.coded)
      all_goals
        simp only [codeByte, hres, if_true, List.flatMap_cons] at hr
        obtain ⟨rfl, rfl⟩ := List.cons.inj hr
        exact ⟨rfl, .inr ⟨hnext, rfl⟩⟩
    · have hdrop : (withChecks (s.frameBody f)).drop t.coded = [] :=
        List.drop_of_length_le (by rw [withChecks, List.length_append]; exact Nat.not_lt.mp hk)
      rw [State.remaining, hshifted, hdrop] at hr
      obtain ⟨rfl, rfl⟩ := List.cons.inj hr
      rw [nextCharacter_end hshifted (by rw [h.frame]; omega)]
      exact ⟨rfl, .inl ⟨rfl, rfl⟩⟩

/-- Every character of a frame under way is sent in its place, the End last. -/
theorem Sending.iterate {f : OutFrame} {t : Transmission} (h : Sending s f t) (n : Nat) (v : Byte)
    (hv : (t.current :: s.remaining f t)[n]? = some v) :
    (s.nextCharacter^[n] t).current = v ∧
      ((s.nextCharacter^[n] t).isEnd = true ↔ n + 1 = (t.current :: s.remaining f t).length) := by
  induction n generalizing t with
  | zero =>
    obtain rfl : t.current = v := Option.some.inj hv
    refine ⟨rfl, ?_⟩
    simp [h.isEnd, State.remaining]
  | succ n ih =>
    rw [Function.iterate_succ_apply]
    cases hr : s.remaining f t with
    | nil => simp [State.remaining] at hr
    | cons c rest =>
      rw [hr] at hv
      obtain ⟨hcurrent, ⟨rfl, hend⟩ | ⟨hnext, hrest⟩⟩ := h.step hr
      · cases n with
        | zero => exact ⟨hcurrent.trans (Option.some.inj hv), by simp [hend]⟩
        | succ n => simp at hv
      · have hrun := ih hnext (by rw [hrest, hcurrent]; exact hv)
        rw [hrest] at hrun
        simpa using hrun

/-- Settles O39: what is sent from the Marker on is the frame's run of characters. -/
theorem theTransmitterSendsTheFrame : Obligations.TheTransmitterSendsTheFrame := by
  refine fun s f => ⟨frameCharacters_eq _, fun n v hv => ?_⟩
  have hrun := (sending_begin s f s.line.rate).iterate n v
  rw [remaining_begin, frameCharacters_eq] at hrun
  exact hrun hv

/-! ### A Marker in HUNT (R91) -/

theorem State.openFrame_stray (h : ∀ x ∈ s.exchange, x.phase ≠ .awaitReply) :
    s.openFrame = { s with line := { s.line with
      gapTimer := s.line.gapTime, rx := .frame (.begin .stray false) } } := by
  rw [State.openFrame]
  dsimp only
  split
  · next x hx => exact if_neg (h x hx)
  · rfl

theorem State.openFrame_reply (hx : s.exchange = some x) (hp : x.phase = .awaitReply) :
    s.openFrame = { s with
      exchange := some { x with phase := .receiveReply }
      line := { s.line with
        replyTimer := 0#8, gapTimer := s.line.gapTime, rx := .frame (.begin .reply false) } } := by
  rw [State.openFrame, hx]
  simp only [if_pos hp]
  rfl

/-! ### A good character in a frame, by its value (R92) -/

theorem State.decodeGood_marker (s : State) (f : InFrame) : s.decodeGood f 0xE0#8 = s.restartFrame f := by
  rw [State.decodeGood, if_pos (show 0xE0#8 = Config.marker from rfl)]

theorem State.decodeGood_end {f : InFrame} (h : f.shiftPending = false) : s.decodeGood f 0xE1#8 = s.closeFrame f := by
  rw [State.decodeGood, if_neg (show 0xE1#8 ≠ Config.marker by decide), if_pos (show 0xE1#8 = Config.endMark from rfl),
    if_neg (by rw [h]; exact nofun)]

theorem State.decodeGood_end_shifted {f : InFrame} (h : f.shiftPending = true) :
    s.decodeGood f 0xE1#8 = s.countCoding.closeFrame { f with shiftPending := false, shiftError := true } := by
  rw [State.decodeGood, if_neg (show 0xE1#8 ≠ Config.marker by decide), if_pos (show 0xE1#8 = Config.endMark from rfl),
    if_pos h]

theorem State.decodeGood_shift {f : InFrame} (h : f.shiftPending = false) :
    s.decodeGood f 0xE2#8 = s.setReceiver (.frame { f with shiftPending := true }) := by
  rw [State.decodeGood, if_neg (show 0xE2#8 ≠ Config.marker by decide), if_neg (show 0xE2#8 ≠ Config.endMark by decide),
    if_neg (by rw [h]; exact nofun), if_pos (show 0xE2#8 = Config.shift from rfl)]

theorem State.decodeGood_plain {f : InFrame} (h : f.shiftPending = false) {v : Byte}
    (hv : ¬ (v = 0xE0#8 ∨ v = 0xE1#8 ∨ v = 0xE2#8)) : s.decodeGood f v = s.decodeByte f v := by
  rw [State.decodeGood, if_neg (show v ≠ Config.marker from fun k => hv (.inl k)),
    if_neg (show v ≠ Config.endMark from fun k => hv (.inr (.inl k))), if_neg (by rw [h]; exact nofun),
    if_neg (show v ≠ Config.shift from fun k => hv (.inr (.inr k)))]

theorem State.decodeGood_shifted {f : InFrame} (h : f.shiftPending = true) {v : Byte}
    (hv : v = 0xEF#8 ∨ v = 0xEE#8 ∨ v = 0xED#8) :
    s.decodeGood f v = s.decodeByte { f with shiftPending := false } (v ^^^ 0x0F#8) := by
  have hunreserved : v ≠ Config.marker ∧ v ≠ Config.endMark := by
    rcases hv with rfl | rfl | rfl <;> decide
  rw [State.decodeGood, if_neg hunreserved.1, if_neg hunreserved.2, if_pos h, if_pos hv]
  rfl

theorem State.decodeGood_shiftError {f : InFrame} (h : f.shiftPending = true) {v : Byte} (hmarker : v ≠ 0xE0#8)
    (hend : v ≠ 0xE1#8) (hv : ¬ (v = 0xEF#8 ∨ v = 0xEE#8 ∨ v = 0xED#8)) :
    s.decodeGood f v = s.codingFault { f with shiftPending := false, shiftError := true } := by
  rw [State.decodeGood, if_neg (show v ≠ Config.marker from hmarker), if_neg (show v ≠ Config.endMark from hend),
    if_pos h, if_neg hv]

/-! ### The decoder of a stray frame (R92 to R96) -/

/-- The state whose receiver follows the frame `f`, its timers reloaded by the latest character. -/
def State.following (s : State) (f : InFrame) : State :=
  { s with line := { s.line with
      guardTimer := s.line.guardTime, gapTimer := s.line.gapTime, rx := .frame f, lineHeld := false } }

/-- A sound character in a frame is decoded by its value. -/
theorem State.receive_following (s : State) (f : InFrame) (v : Byte) :
    (s.following f).receive v (evenParity v) true = (s.following f).decodeGood f v := by
  have hgood : goodCharacter v (evenParity v) true = true := (goodCharacter_iff _ _ _).mpr ⟨rfl, rfl⟩
  rw [State.receive, hgood]
  rfl

/-- A stray frame with no mark, no Shift pending and room for a body byte. -/
structure InFrame.Open (f : InFrame) : Prop where
  dest : f.dest = .stray
  count : f.count < 485
  shiftPending : f.shiftPending = false
  oversize : f.oversize = false

theorem State.decodeByte_open {f : InFrame} (h : f.Open) (g : InFrame) (v : Byte) :
    (s.following g).decodeByte f v = s.following (f.hold v) := by
  have hcount : ¬ Config.maxBody ≤ f.count := Nat.not_le.mpr h.count
  rw [State.decodeByte, if_neg (by rw [h.oversize]; exact nofun), if_neg hcount, h.dest]
  rfl

/-- The characters of a coded body byte have the decoder hold it. -/
theorem State.receive_onTheWire {f : InFrame} (h : f.Open) (v : Byte) :
    (onTheWire v).foldl (fun t v => t.receive v (evenParity v) true) (s.following f) = s.following (f.hold v) := by
  by_cases hv : v = 0xE0#8 ∨ v = 0xE1#8 ∨ v = 0xE2#8
  · have hback : (v ^^^ 0x0F#8 = 0xEF#8 ∨ v ^^^ 0x0F#8 = 0xEE#8 ∨ v ^^^ 0x0F#8 = 0xED#8) ∧
        v ^^^ 0x0F#8 ^^^ 0x0F#8 = v := by
      rcases hv with rfl | rfl | rfl <;> decide
    have hplain : ({ f with shiftPending := false } : InFrame) = f := by rw [← h.shiftPending]
    have hdecoded : (s.following { f with shiftPending := true }).decodeGood { f with shiftPending := true }
        (v ^^^ 0x0F#8) = s.following (f.hold v) := by
      refine (State.decodeGood_shifted rfl hback.1).trans ?_
      rw [hback.2]
      dsimp only
      rw [hplain, State.decodeByte_open h]
    rw [onTheWire, if_pos hv, List.foldl_cons, List.foldl_cons, List.foldl_nil, State.receive_following,
      State.decodeGood_shift h.shiftPending]
    exact (State.receive_following s _ _).trans hdecoded
  · rw [onTheWire, if_neg hv, List.foldl_cons, List.foldl_nil, State.receive_following, State.decodeGood_plain h.shiftPending hv,
      State.decodeByte_open h]

theorem InFrame.Open.hold {f : InFrame} (h : f.Open) (v : Byte) (hcount : f.count + 1 < 485) : (f.hold v).Open := by
  obtain ⟨hdest, hc, -, hshift, -, -, hover, -, -⟩ := f.hold_marks v
  exact ⟨hdest.trans h.dest, by rw [hc]; exact hcount, hshift.trans h.shiftPending, hover.trans h.oversize⟩

/-- The frame after a run of body bytes. -/
def InFrame.holdAll (f : InFrame) (body : List Byte) : InFrame := body.foldl InFrame.hold f

theorem InFrame.holdAll_marks (f : InFrame) (body : List Byte) :
    (f.holdAll body).dest = f.dest ∧ (f.holdAll body).count = f.count + body.length ∧
      (f.holdAll body).shiftPending = f.shiftPending ∧ (f.holdAll body).oversize = f.oversize := by
  induction body generalizing f with
  | nil => exact ⟨rfl, rfl, rfl, rfl⟩
  | cons v body ih =>
    obtain ⟨hdest, hc, -, hshift, -, -, hover, -, -⟩ := f.hold_marks v
    obtain ⟨hdest', hc', hshift', hover'⟩ := ih (f.hold v)
    refine ⟨hdest'.trans hdest, ?_, hshift'.trans hshift, hover'.trans hover⟩
    rw [List.length_cons, ← Nat.add_assoc, Nat.add_right_comm, ← hc]
    exact hc'

/-- The coded bytes of a body that fits are all held. -/
theorem State.receive_body {f : InFrame} (h : f.Open) (body : List Byte) (hfits : f.count + body.length ≤ 485) :
    (body.flatMap onTheWire).foldl (fun t v => t.receive v (evenParity v) true) (s.following f) =
      s.following (f.holdAll body) := by
  induction body generalizing f with
  | nil => rfl
  | cons v body ih =>
    rw [List.flatMap_cons, List.foldl_append, State.receive_onTheWire h]
    cases body with
    | nil => rfl
    | cons w body =>
      rw [List.length_cons, List.length_cons] at hfits
      refine ih (h.hold v (by omega)) ?_
      rw [(f.hold_marks v).2.1, List.length_cons]
      omega

/-- The pair held last is the last two bytes, and the accumulators hold the checks of those before (R84, R93). -/
theorem InFrame.holdAll_checks (dest : FrameDest) (body : List Byte) (a b : Byte) :
    ((InFrame.begin dest false).holdAll (body ++ [a, b])).older = some a ∧
      ((InFrame.begin dest false).holdAll (body ++ [a, b])).newer = some b ∧
      ((InFrame.begin dest false).holdAll (body ++ [a, b])).accXor = checkXor body ∧
      ((InFrame.begin dest false).holdAll (body ++ [a, b])).accSum = body.foldl (· + ·) 0#8 ∧
      ((InFrame.begin dest false).holdAll (body ++ [a, b])).accCount = BitVec.ofNat 8 body.length := by
  induction body using List.reverseRecOn generalizing a b with
  | nil => exact ⟨rfl, rfl, rfl, rfl, rfl⟩
  | append_singleton body c ih =>
    obtain ⟨hold, hnew, hxor, hsum, hcount⟩ := ih c a
    have hall : (InFrame.begin dest false).holdAll (body ++ [c] ++ [a, b]) =
        ((InFrame.begin dest false).holdAll (body ++ [c, a])).hold b := by
      simp [InFrame.holdAll]
    rw [hall, InFrame.hold_full _ b c a hold hnew]
    refine ⟨rfl, rfl, ?_, ?_, ?_⟩
    · rw [checkXor_append]
      exact congrArg (· ^^^ c) hxor
    · rw [List.foldl_append]
      exact congrArg (· + c) hsum
    · rw [List.length_append, BitVec.ofNat_add]
      exact congrArg (· + 1#8) hcount

/-- Settles O40: the frame is followed byte by byte, and its checks agree at its End. -/
theorem soundFramesAreDecodedWhole : Obligations.SoundFramesAreDecodedWhole := by
  intro s body hrx hheld hfits hidle
  have hopened : s.receive 0xE0#8 (evenParity 0xE0#8) true = s.following (.begin .stray false) := by
    rw [State.receive, hheld, hrx]
    exact State.openFrame_stray (s := State.loadGuard { s with line := { s.line with lineHeld := !true } }) hidle
  have hopen : (InFrame.begin .stray false).Open := ⟨rfl, by decide, rfl, rfl⟩
  have hwire : wireFrame body = 0xE0#8 :: ((withChecks body).flatMap onTheWire ++ [0xE1#8]) := by
    simp [wireFrame, withChecks, checkXor_eq, checkSum_eq]
  have hbody := State.receive_body (s := s) hopen (withChecks body) (by
    rw [withChecks, List.length_append]; change 0 + (body.length + 2) ≤ 485; omega)
  obtain ⟨hdest, hcount, hpending, hover⟩ := (InFrame.begin .stray false).holdAll_marks (withChecks body)
  obtain ⟨holder, hnewer, hxor, hsum, hnumber⟩ := InFrame.holdAll_checks .stray body (checkXor body) (checkSum body)
  have hsound : ¬ ((InFrame.begin .stray false).holdAll (withChecks body)).checkFails = true := by
    rw [InFrame.checkFails_iff]
    rintro ⟨-, -, hfails⟩
    rw [withChecks, holder, hnewer, hxor, hsum, hnumber] at hfails
    exact hfails ⟨rfl, rfl⟩
  rw [hwire, List.foldl_cons, hopened, List.foldl_append, hbody, List.foldl_cons, List.foldl_nil,
    State.receive_following, State.decodeGood_end hpending, State.closeFrame_stray _ _ hdest, if_neg hsound]
  rw [State.following, ← hrx, ← hheld]

end Sys2Proof.Machine
end

section
set_option Elab.async false
/-! PROOFS. Characters received, outside a frame and inside one (O41, O42). -/

namespace Sys2Proof.Machine

open Sys2Proof.Safety

variable {s t u : State} {c : Instr} {x : Exchange}

/-! ### The completion of a broadcast (R39, R129, R163) -/

/-- Posting a completion of the broadcast list. -/
theorem State.post_broadcast (s : State) (i : SlotId) (k : Completion) :
    s.post i .broadcast k = { s with
      queue := queueAfter s.queue [k]
      command := { s.command with
        slots := s.command.slots.set i none, broadcastList := s.command.broadcastList.erase i } } := by
  rw [← CompletionQueue.evalPosting_join]
  rfl

/-- The end of an exchange whose broadcast has completed, its record settled by the outcome. -/
theorem State.closeDone_broadcast {i : SlotId} {y : Slot} (hi : x.slot = some i) (hy : s.slot i = some y)
    (hp : y.place = .broadcast) (o : Outcome) (d : Byte) (n : Nat) (g : Option Handle) :
    s.closeDone x o d n g = { s.settled y.handle o with
      exchange := none
      queue := queueAfter s.queue [y.completion o d n (s.completedHandle y.handle o g)]
      command := { s.command with
        slots := s.command.slots.set i none, broadcastList := s.command.broadcastList.erase i } } := by
  have hsame := s.settled_sameButStore y.handle o
  rw [State.closeDone, hi]
  dsimp only
  rw [State.completeHead, hy]
  dsimp only
  rw [hp]
  dsimp only
  rw [s.complete_some i o d n g y hy, hp, State.post_broadcast, hsame.queue, hsame.command]
  rfl

/-! ### A character received, by the state of the receiver (R80, R97) -/

/-- The state once a character has been heard: the guard timer reloaded, the line held by a stop bit of 0. -/
def State.heard (s : State) (stop : Bool) : State :=
  { s with line := { s.line with guardTimer := s.line.guardTime, lineHeld := !stop } }

/-- The state once the echo of the End has been heard. -/
def State.echoed (s : State) (stop : Bool) : State :=
  { s with line := { s.line with
      guardTimer := s.line.guardTime, lineHeld := !stop, echoList := [], rx := .hunt } }

theorem State.receive_held {v : Byte} {p st : Bool} (h : s.line.lineHeld = true) : s.receive v p st = s :=
  if_pos h

theorem State.receive_drain {v : Byte} {p st : Bool} (h : s.line.lineHeld = false) (hrx : s.line.rx = .drain) :
    s.receive v p st = s.heard st := by
  rw [State.receive, h, hrx]
  rfl

theorem State.receive_hunt {v : Byte} {p st : Bool} (h : s.line.lineHeld = false) (hrx : s.line.rx = .hunt) :
    s.receive v p st =
      if (p = evenParity v ∧ st = true) ∧ v = 0xE0#8 then (s.heard st).openFrame else s.heard st := by
  rw [State.receive, h, hrx]
  simp only [← goodCharacter_iff]
  rfl

theorem State.receive_frame {v : Byte} {p st : Bool} {f : InFrame} (h : s.line.lineHeld = false)
    (hrx : s.line.rx = .frame f) :
    s.receive v p st = (s.heard st).decodeCharacter f v (goodCharacter v p st) := by
  rw [State.receive, h, hrx]
  rfl

theorem State.receive_echo {v : Byte} {p st : Bool} (h : s.line.lineHeld = false) (hrx : s.line.rx = .echo) :
    s.receive v p st = (s.heard st).compareEcho v (goodCharacter v p st) := by
  rw [State.receive, h, hrx]
  rfl

/-! ### The echo of a character (R88) -/

theorem State.compareEcho_match {k : EchoChar} {rest : List EchoChar} {v : Byte} (h : s.line.echoList = k :: rest)
    (hv : v = k.value) (hmore : v ≠ 0xE1#8 ∨ rest ≠ []) :
    s.compareEcho v true = { s with line := { s.line with echoList := rest } } := by
  rw [State.compareEcho, h]
  dsimp only
  rw [if_pos ⟨rfl, hv⟩, if_neg]
  rintro ⟨hend, hrest⟩
  exact hmore.elim (absurd hend) (absurd hrest)

theorem State.compareEcho_end {k : EchoChar} (h : s.line.echoList = [k]) (hv : 0xE1#8 = k.value) :
    s.compareEcho 0xE1#8 true =
      State.echoComplete { s with line := { s.line with echoList := [], rx := .hunt } } := by
  rw [State.compareEcho, h]
  dsimp only
  rw [if_pos ⟨rfl, hv⟩, if_pos ⟨rfl, rfl⟩]
  rfl

theorem State.compareEcho_fault {v : Byte} {good : Bool}
    (h : ∀ k ∈ s.line.echoList.head?, ¬ (good = true ∧ v = k.value)) : s.compareEcho v good = s.echoFault := by
  rw [State.compareEcho]
  split
  · rfl
  · next k rest hlist => exact if_neg (h k (by rw [hlist]; rfl))

/-! ### The echo of a frame's End (R26, R39, R41) -/

theorem State.echoComplete_awaits (hx : s.exchange = some x) (hp : x.phase = .transmit) (hk : x.kind ≠ .broadcast) :
    s.echoComplete = { s with
      exchange := some { x with phase := .awaitReply }
      line := { s.line with replyTimer := s.line.replyTimeout } } := by
  rw [State.echoComplete, hx]
  dsimp only
  rw [hp]
  exact if_neg hk

theorem State.echoComplete_broadcast (hx : s.exchange = some x) (hp : x.phase = .transmit) (hk : x.kind = .broadcast) :
    s.echoComplete = s.closeDone x .sent 0#8 0 none := by
  rw [State.echoComplete, hx]
  dsimp only
  rw [hp]
  exact if_pos hk

theorem State.echoComplete_answered (hx : s.exchange = some x) (hp : x.phase = .answer) :
    s.echoComplete = { s.completeDecision x with exchange := none } := by
  rw [State.echoComplete, hx]
  dsimp only
  rw [hp]
  rfl

/-- The character has its effect. -/
theorem happens_characterReceived {v : Byte} {p st : Bool} (hheld : s.resetHeld = false) (h : s.receive v p st = t) :
    Happens (.characterReceived v p st) s t :=
  happens_of_effect (·.receive v p st) hheld rfl h

/-- Settles O41: by the state of the receiver and, in ECHO, by what the echo list awaits. -/
theorem charactersOutsideAFrame : Obligations.CharactersOutsideAFrame := by
  refine fun s v p st hheld => ⟨fun h => happens_characterReceived hheld (State.receive_held h), fun hline =>
    ⟨fun hrx => happens_characterReceived hheld (State.receive_drain hline hrx), fun hrx hno => ?_,
      fun hrx hgood hv => ⟨fun x hx hp => ?_, fun hidle => ?_⟩, fun hrx k rest hlist hgood hv hmore => ?_,
      fun hrx k hlist hgood hv hend x hx hp hk => ?_, fun hrx k hlist hgood hv hend x hx => ?_⟩⟩
  · exact happens_characterReceived hheld ((State.receive_hunt hline hrx).trans (if_neg hno))
  · refine happens_characterReceived hheld ((State.receive_hunt hline hrx).trans ((if_pos ⟨hgood, hv⟩).trans ?_))
    exact State.openFrame_reply (s := s.heard st) hx hp
  · refine happens_characterReceived hheld ((State.receive_hunt hline hrx).trans ((if_pos ⟨hgood, hv⟩).trans ?_))
    exact State.openFrame_stray (s := s.heard st) hidle
  · refine happens_characterReceived hheld ((State.receive_echo hline hrx).trans ?_)
    rw [(goodCharacter_iff v p st).mpr hgood]
    exact State.compareEcho_match (s := s.heard st) hlist hv hmore
  · subst hend
    refine happens_characterReceived hheld ((State.receive_echo hline hrx).trans ?_)
    rw [(goodCharacter_iff _ p st).mpr hgood, State.compareEcho_end (s := s.heard st) hlist hv]
    exact State.echoComplete_awaits hx hp hk
  subst hend
  have heard : s.receive 0xE1#8 p st =
      (s.echoed st).echoComplete := by
    rw [State.receive_echo hline hrx, (goodCharacter_iff _ p st).mpr hgood,
      State.compareEcho_end (s := s.heard st) hlist hv]
    rfl
  refine ⟨fun hp hk i y h hi hy hplace hh => ?_, fun hp hi => ?_, fun hp e i behind y d hi hd hy hplace hh hl hs => ?_⟩
  · have hclosed := State.closeDone_broadcast (s := s.echoed st) hi hy hplace .sent 0#8 0 none
    rw [hh] at hclosed
    refine ⟨_, happens_characterReceived hheld (heard.trans (State.echoComplete_broadcast hx hp hk)), ?_⟩
    cases hkeep : (s.record h).keep with
    | false =>
      obtain ⟨hsettled, hhandle⟩ := State.settled_freed (s.echoed st) h .sent rfl hkeep
      rw [hsettled, hhandle] at hclosed
      have hsame := (s.echoed st).freeRecord_sameButStore h
      have hreturned := (s.echoed st).freeRecord_returned h
      have hrecord (g : Handle) := (s.echoed st).record_freeRecord h g
      generalize (s.echoed st).freeRecord h = u at hclosed hsame hreturned hrecord
      rw [hclosed]
      refine ⟨rfl, rfl, rfl, fun g hg => ?_, fun _ => ⟨?_, ?_⟩, fun k => ?_, hsame.line, hsame.table, hsame.arbiter,
        hsame.inbound, hsame.lastClose, hsame.resetHeld, hsame.readData, hsame.pending⟩
      · exact (hrecord g).trans (if_neg (Ne.symm hg))
      · exact (hrecord h).trans (if_pos rfl)
      · exact hreturned
      · cases k
    | true =>
      obtain ⟨hsettled, hhandle⟩ := State.settled_ready (s.echoed st) h .sent (.inr hkeep)
      rw [hsettled, hhandle] at hclosed
      rw [hclosed]
      refine ⟨rfl, rfl, rfl, fun g hg => ?_, fun k => ?_, fun _ => ⟨?_, ⟨rfl, rfl, rfl, rfl, rfl⟩, rfl⟩, rfl, rfl, rfl,
        rfl, rfl, rfl, rfl, rfl⟩
      · exact ((s.echoed st).record_readyRecord h g).trans (if_neg (Ne.symm hg))
      · cases k
      · exact ((s.echoed st).record_readyRecord h h).trans (if_pos rfl)
  · refine happens_characterReceived hheld (heard.trans ((State.echoComplete_answered (s := s.echoed st) hx hp).trans ?_))
    rw [State.completeDecision_none _ x hi]
    rfl
  · exact ⟨_, State.completeDecision_completed (s.echoed st) x e i behind y d hd hi hy hh hl hs,
      happens_characterReceived hheld (heard.trans (State.echoComplete_answered (s := s.echoed st) hx hp))⟩

/-! ### Inside a frame (R92 to R96, R99, R101) -/

/-- The state once a character has been heard inside a frame: the gap timer is reloaded too. -/
def State.heardInside (s : State) (stop : Bool) : State :=
  { s with line := { s.line with
      guardTimer := s.line.guardTime, gapTimer := s.line.gapTime, lineHeld := !stop } }

theorem State.receive_good {v : Byte} {p st : Bool} {f : InFrame} (h : s.line.lineHeld = false)
    (hrx : s.line.rx = .frame f) (hgood : p = evenParity v ∧ st = true) :
    s.receive v p st = (s.heardInside st).decodeGood f v := by
  rw [State.receive_frame h hrx, (goodCharacter_iff v p st).mpr hgood]
  rfl

theorem State.receive_bad {v : Byte} {p st : Bool} {f : InFrame} (h : s.line.lineHeld = false)
    (hrx : s.line.rx = .frame f) (hbad : ¬ (p = evenParity v ∧ st = true)) :
    s.receive v p st = (s.heardInside st).codingFault { f with shiftPending := false, charError := true } := by
  rw [State.receive_frame h hrx, State.decodeCharacter, if_neg fun k => hbad ((goodCharacter_iff v p st).mp k)]
  rfl

theorem State.decodeByte_oversize {f : InFrame} (h : f.oversize = true) (w : Byte) :
    s.decodeByte f w = s.setReceiver (.frame f) := by
  rw [State.decodeByte, if_pos h]

theorem State.decodeByte_full {f : InFrame} (h : f.oversize = false) (hcount : 485 ≤ f.count) (w : Byte) :
    s.decodeByte f w = s.codingFault { f with oversize := true } := by
  rw [State.decodeByte, if_neg (by rw [h]; exact nofun), if_pos (show Config.maxBody ≤ f.count from hcount)]

theorem State.decodeByte_stray {f : InFrame} (h : f.oversize = false) (hcount : f.count < 485) (hdest : f.dest = .stray)
    (w : Byte) : s.decodeByte f w = s.setReceiver (.frame (f.hold w)) := by
  rw [State.decodeByte, if_neg (by rw [h]; exact nofun), if_neg (show ¬ Config.maxBody ≤ f.count from Nat.not_le.mpr hcount),
    hdest]

/-- A restart of a stray frame counts its coding faults (R92, R95, R101). -/
theorem State.restartFrame_stray {f : InFrame} (hdest : f.dest = .stray) :
    s.restartFrame f = { s with line := { s.line with
      coding := satInc (if f.shiftPending then satInc s.line.coding else s.line.coding)
      rx := .frame { openedFrame f.dest with restarted := true } } } := by
  rw [State.restartFrame, hdest]
  cases f.shiftPending <;> rfl

/-- A restart of a reply stops a STORING arrival too (R95, R141). -/
theorem State.restartFrame_reply {f : InFrame} (hdest : f.dest = .reply) :
    s.restartFrame f = { s with
      inbound := { s.inbound with
        arrival := s.inbound.arrival.map fun a => { a with stop := some (a.stop.getD .restart) } }
      line := { s.line with
        coding := satInc (if f.shiftPending then satInc s.line.coding else s.line.coding)
        rx := .frame { openedFrame f.dest with restarted := true } } } := by
  rw [State.restartFrame, hdest]
  dsimp only
  rw [State.restartArrival_eq]
  cases f.shiftPending <;> rfl

/-- A body byte decoded inside a frame: beyond 485 it is discarded, and in a stray frame it is held (R92, R93). -/
theorem happens_bodyByte {v w : Byte} {p st : Bool} {f : InFrame} (hheld : s.resetHeld = false)
    (h : s.receive v p st = (s.heardInside st).decodeByte { f with shiftPending := false } w) :
    (f.oversize = true → Happens (.characterReceived v p st) s
      { s.heardInside st with line := { (s.heardInside st).line with
        coding := s.line.coding, rx := .frame { f with shiftPending := false } } }) ∧
    (f.oversize = false → 485 ≤ f.count → Happens (.characterReceived v p st) s
      { s.heardInside st with line := { (s.heardInside st).line with
        coding := satInc s.line.coding, rx := .frame { f with shiftPending := false, oversize := true } } }) ∧
    (f.oversize = false → f.count < 485 → f.dest = .stray → Happens (.characterReceived v p st) s
      { s.heardInside st with line := { (s.heardInside st).line with
        coding := s.line.coding, rx := .frame (heldFrame f w) } }) := by
  refine ⟨fun hover => ?_, fun hover hcount => ?_, fun hover hcount hdest => ?_⟩
  all_goals refine happens_characterReceived hheld (h.trans ?_)
  · rw [State.decodeByte_oversize (f := { f with shiftPending := false }) hover]
    rfl
  · rw [State.decodeByte_full (f := { f with shiftPending := false }) hover hcount]
    rfl
  · rw [State.decodeByte_stray (f := { f with shiftPending := false }) hover hcount hdest, InFrame.hold_held]
    rfl

/-- A stray frame closed by its End, marked for a Shift left pending (R92, R94). -/
theorem State.decodeGood_end_stray {f : InFrame} (hdest : f.dest = .stray) :
    s.decodeGood f 0xE1#8 = { s with line := { s.line with
      gapTimer := 0#4, rx := .hunt, stray := satInc s.line.stray
      coding := if f.shiftPending then satInc s.line.coding else s.line.coding
      check := if f.shiftPending = false ∧ f.checkFails = true then satInc s.line.check else s.line.check } } := by
  cases hpending : f.shiftPending with
  | false =>
    rw [State.decodeGood_end hpending, State.closeFrame_stray _ _ hdest]
    simp
  | true =>
    have hsound : ¬ ({ f with shiftPending := false, shiftError := true } : InFrame).checkFails = true := by
      rw [InFrame.checkFails_iff]
      exact fun k => k.1 (.inl rfl)
    rw [State.decodeGood_end_shifted hpending,
      State.closeFrame_stray _ { f with shiftPending := false, shiftError := true } hdest, if_neg hsound]
    rfl

/-- Settles O42: by the value of the character and by the state of the frame. -/
theorem charactersInsideAFrame : Obligations.CharactersInsideAFrame := by
  intro s f v p st hheld hline hrx
  refine ⟨fun hbad => ?_, fun hgood hv => ⟨fun hdest => ?_, fun hdest => ?_⟩, fun hgood hv hpending => ?_,
    fun hgood hpending hmarker hend => ⟨fun hv => ?_, fun hv => ?_, fun hv => ?_, fun hF hE hD => ?_⟩,
    fun hgood hpending hmarker hend hshift => ?_, fun hgood hv hdest => ?_⟩
  · exact happens_characterReceived hheld (State.receive_bad hline hrx hbad)
  · subst hv
    refine happens_characterReceived hheld ((State.receive_good hline hrx hgood).trans ?_)
    rw [State.decodeGood_marker, State.restartFrame_stray hdest]
    rfl
  · subst hv
    refine happens_characterReceived hheld ((State.receive_good hline hrx hgood).trans ?_)
    rw [State.decodeGood_marker, State.restartFrame_reply hdest]
    rfl
  · subst hv
    refine happens_characterReceived hheld ((State.receive_good hline hrx hgood).trans ?_)
    rw [State.decodeGood_shift hpending]
    rfl
  · refine happens_bodyByte hheld ((State.receive_good hline hrx hgood).trans ?_)
    rw [State.decodeGood_shifted hpending (.inl hv), hv]
    rfl
  · refine happens_bodyByte hheld ((State.receive_good hline hrx hgood).trans ?_)
    rw [State.decodeGood_shifted hpending (.inr (.inl hv)), hv]
    rfl
  · refine happens_bodyByte hheld ((State.receive_good hline hrx hgood).trans ?_)
    rw [State.decodeGood_shifted hpending (.inr (.inr hv)), hv]
    rfl
  · refine happens_characterReceived hheld ((State.receive_good hline hrx hgood).trans ?_)
    rw [State.decodeGood_shiftError hpending hmarker hend (by simp [hF, hE, hD])]
    rfl
  · have hplain : ({ f with shiftPending := false } : InFrame) = f := by rw [← hpending]
    refine happens_bodyByte hheld ((State.receive_good hline hrx hgood).trans ?_)
    rw [State.decodeGood_plain hpending (by simp [hmarker, hend, hshift]), hplain]
  · subst hv
    have hclosed := (State.receive_good hline hrx hgood).trans (State.decodeGood_end_stray hdest)
    have hcheck : (f.shiftPending = false ∧ f.checkFails = true) ↔
        ¬ (f.shiftPending = true ∨ f.shiftError = true ∨ f.charError = true ∨ f.oversize = true ∨
          f.restarted = true) ∧ 5 ≤ f.count ∧ ¬ (f.older = some f.accXor ∧ f.newer = some (f.accSum + f.accCount)) := by
      rw [InFrame.checkFails_iff, not_or (p := f.shiftPending = true), Bool.not_eq_true, and_assoc]
    refine ⟨fun hfails => ?_, fun hsound => ?_⟩
    · rw [if_pos (hcheck.mpr hfails)] at hclosed
      exact happens_characterReceived hheld hclosed
    · rw [if_neg fun k => hsound (hcheck.mp k)] at hclosed
      exact happens_characterReceived hheld hclosed

end Sys2Proof.Machine
end

section
set_option Elab.async false
/-! PROOFS. Echo faults, quiet lines and the timers of the reply (O43 to O45). -/

namespace Sys2Proof.Machine

open Sys2Proof.Safety

variable {s t u : State} {c : Instr} {x : Exchange}

/-! ### An ECHO fault, by the phase it finds (R26, R42, R89) -/

theorem State.echoFailed_transmit (hx : s.exchange = some x) (hp : x.phase = .transmit) :
    s.echoFailed = s.failAttempt x .echo := by
  rw [State.echoFailed, hx]
  dsimp only
  rw [hp]

theorem State.echoFailed_answer (hx : s.exchange = some x) (hp : x.phase = .answer) :
    s.echoFailed = { (s.completeDecision x).report x.place .echo with exchange := none } := by
  rw [State.echoFailed, hx]
  dsimp only
  rw [hp]
  rfl

theorem State.echoFailed_else (h : ∀ x ∈ s.exchange, x.phase ≠ .transmit ∧ x.phase ≠ .answer) : s.echoFailed = s := by
  rcases s.echoFailed_cases with ⟨x, hx, hp, -⟩ | ⟨x, hx, hp, -⟩ | ⟨-, e⟩
  · exact absurd hp (h x hx).1
  · exact absurd hp (h x hx).2
  · exact e

/-- What an ECHO fault does to the exchange in flight, on the line as the fault leaves it. -/
theorem happens_echoFault {l : LineEngine}
    (hc : ∀ u, State.echoFailed { s with line := l } = u → Happens c s u) :
    ((∀ x ∈ s.exchange, x.phase ≠ .transmit ∧ x.phase ≠ .answer) → Happens c s { s with line := l }) ∧
      (∀ x ∈ s.exchange, x.phase = .transmit → Happens c s (State.failAttempt { s with line := l } x .echo)) ∧
      (∀ x ∈ s.exchange, x.phase = .answer → x.slot = none →
        Happens c s { State.report { s with line := l } x.place .echo with exchange := none }) ∧
      (∀ x ∈ s.exchange, x.phase = .answer → ∀ e i behind y d, x.place = .station e → x.slot = some i →
        x.decision = some d → s.slot i = some y → y.place = .station e → y.handle = none →
        (s.entry e).pendingList = i :: behind → SlotsListed s →
        ∃ u, PollCompleted { s with line := l } u e i behind y d ∧
          Happens c s { u.report (.station e) .echo with exchange := none }) ∧
      (∀ x ∈ s.exchange, x.phase = .answer → ∃ u, Happens c s u ∧ u.exchange = none) := by
  refine ⟨fun h => hc _ (State.echoFailed_else h), fun x hx hp => hc _ (State.echoFailed_transmit hx hp),
    fun x hx hp hi => hc _ ?_, fun x hx hp e i behind y d hplace hi hd hy _ hh hl hs => ⟨_,
      State.completeDecision_completed { s with line := l } x e i behind y d hd hi hy hh hl hs, hc _ ?_⟩,
    fun x hx hp => ⟨_, hc _ (State.echoFailed_answer hx hp), rfl⟩⟩
  · rw [State.echoFailed_answer (s := { s with line := l }) hx hp, State.completeDecision_none _ x hi]
  · rw [State.echoFailed_answer (s := { s with line := l }) hx hp, hplace]

/-- A failure that does not reach the fail limit is counted against the station, and nothing else changes (R10, R104). -/
theorem State.report_below_limit {e : EntryId} {o : AttemptOutcome} (ho : o.failed = true)
    (hlimit : satInc (s.entry e).consecFail ≠ (s.entry e).failLimit) :
    s.report (.station e) o = { s with table := { s.table with entries := (s.table.entries.set e { s.entry e with
      consecFail := satInc (s.entry e).consecFail, failTotal := satInc (s.entry e).failTotal
      lastFault := o }) } } := by
  rcases s.report_cases (.station e) o with ⟨h, -⟩ | ⟨d, hd, ⟨-, hcount, -⟩ | ⟨-, h⟩⟩
  · cases h
  · cases hd
    rw [Entry.count_of_failed ho] at hcount
    exact absurd hcount hlimit
  · cases hd
    rw [h, Entry.count_of_failed ho]
    rfl

/-- Settles O43: the fault cuts the transmission, and the exchange in flight hears of it by its phase. -/
theorem echoFaults : Obligations.EchoFaults := by
  refine ⟨fun s hheld hrx => ⟨fun hlist => ?_, fun hlist => ?_, fun v p st hline hwrong => ?_⟩,
    fun u e hlimit => State.report_below_limit rfl hlimit⟩
  · refine happens_echoFault fun u hu => happens_of_effect State.echoOverdue hheld rfl ?_
    rw [State.echoOverdue, hrx]
    dsimp only
    rw [if_neg hlist, State.echoFault_eq]
    exact hu
  · refine happens_of_effect State.echoOverdue hheld rfl ?_
    rw [State.echoOverdue, hrx]
    exact if_pos hlist
  · refine happens_echoFault fun u hu => happens_characterReceived hheld ?_
    have hfault : ∀ k ∈ (s.heard st).line.echoList.head?, ¬ (goodCharacter v p st = true ∧ v = k.value) := by
      intro k hk hgood
      obtain ⟨hp, hst⟩ := (goodCharacter_iff v p st).mp hgood.1
      exact hwrong k hk ⟨hp, hst, hgood.2⟩
    rw [State.receive_echo hline hrx, State.compareEcho_fault hfault, State.echoFault_eq]
    exact hu

/-! ### The frames the controller sends (R25, R41, R48, R53) -/

/-- The fields of a CTRL byte. -/
theorem ctrlByte_fields (k : FrameKind) (seq : Bool) :
    (ctrlByte k seq).extractLsb' 5 3 = 0#3 ∧ (ctrlByte k seq).extractLsb' 0 4 = k.code ∧
      (ctrlByte k seq).getLsbD 4 = seq := by
  refine ⟨?_, ?_, ?_⟩
  all_goals simp (disch := decide) only [ctrlByte, HAppend.hAppend, extractLsb'_append_low, extractLsb'_append_high,
    getLsbD_append_low, getLsbD_append_high, Nat.reduceSub, BitVec.extractLsb'_eq_self, getLsbD_bit_zero]

theorem ctrlByte_eq (k : FrameKind) (seq : Bool) :
    ctrlByte k seq = k.code.setWidth 8 ||| (if seq = true then 0x10#8 else 0x00#8) := by
  cases k <;> cases seq <;> rfl

/-- The payload that carries a record is its bytes. -/
theorem State.payload_of_record (s : State) {p : PayloadSource} {h : Handle}
    (hp : p = .record h (s.record h).length) :
    p.length = (s.record h).length ∧ ∀ k, s.payloadByte p k = s.recordByte h k := by
  subst hp
  exact ⟨rfl, fun _ => rfl⟩

theorem State.attemptFrame_dest (s : State) (x : Exchange) : (s.attemptFrame x).dest = s.addressOf x.place := by
  rw [State.attemptFrame]
  cases x.kind <;> rfl

/-- A SEND and a BROADCAST carry the record of the slot served. -/
theorem State.attemptFrame_record {i : SlotId} {y : Slot} {h : Handle} (hk : x.kind = .send ∨ x.kind = .broadcast)
    (hi : i ∈ x.slot) (hy : y ∈ s.slot i) (hh : h ∈ y.handle) :
    (s.attemptFrame x).payload = .record h (s.record h).length := by
  have hhandle : (x.slot.bind s.slot).bind Slot.handle = some h := by
    rw [Option.mem_def.mp hi, Option.bind_some, Option.mem_def.mp hy]
    exact hh
  rw [State.attemptFrame, hhandle]
  rcases hk with hk | hk <;> rw [hk]

/-- An ACTION carries its code and its parameter bytes. -/
theorem State.attemptFrame_action {i : SlotId} {y : Slot} {a : ActionData} (hk : x.kind = .action)
    (hi : i ∈ x.slot) (hy : y ∈ s.slot i) (ha : a ∈ y.action) :
    (s.attemptFrame x).payload = .bytes (a.code :: a.params) := by
  have haction : (x.slot.bind s.slot).bind Slot.action = some a := by
    rw [Option.mem_def.mp hi, Option.bind_some, Option.mem_def.mp hy]
    exact ha
  rw [State.attemptFrame, haction, hk]

/-- The CTRL byte of the attempt with a station. -/
theorem State.attemptFrame_ctrl {e : EntryId} (hplace : x.place = .station e) :
    (s.attemptFrame x).ctrl = match x.kind with
      | .send => ctrlByte .data (s.entry e).txSeq
      | .action => ctrlByte .action (s.entry e).txSeq
      | .poll | .roundPoll => ctrlByte .poll false
      | .sync _ => ctrlByte .sync false
      | .broadcast => ctrlByte .data false
      | .probe => ctrlByte .probe false := by
  rw [State.attemptFrame, hplace]
  cases x.kind <;> rfl

/-- Counting the attempt changes nothing the frame reads. -/
theorem State.attemptFrame_countAttempt (s : State) (i : Option SlotId) (x : Exchange) :
    (s.countAttempt i).attemptFrame x = s.attemptFrame x := by
  have hframe := s.countAttempt_frame i
  have hslot : ∀ j, ((s.countAttempt i).slot j).bind Slot.handle = (s.slot j).bind Slot.handle ∧
      ((s.countAttempt i).slot j).bind Slot.action = (s.slot j).bind Slot.action := by
    intro j
    rw [s.countAttempt_slot i j]
    split <;> cases s.slot j <;> exact ⟨rfl, rfl⟩
  have hhandle : (x.slot.bind (s.countAttempt i).slot).bind Slot.handle = (x.slot.bind s.slot).bind Slot.handle := by
    cases x.slot with
    | none => rfl
    | some j => exact (hslot j).1
  have haction : (x.slot.bind (s.countAttempt i).slot).bind Slot.action = (x.slot.bind s.slot).bind Slot.action := by
    cases x.slot with
    | none => rfl
    | some j => exact (hslot j).2
  rw [State.attemptFrame, hhandle, haction, hframe]
  rfl

/-! ### A quiet line (R97) -/

/-- The guard timer has run out. -/
def State.guardOver (s : State) : State := { s with line := { s.line with guardTimer := 0#4 } }

/-- The exchange in flight, and so no close, decides what the guard timer's running out ends with. -/
theorem exec_guardTimerExpiry (hheld : s.resetHeld = false) (hx : s.exchange = some x)
    (ht : s.guardOver.reportQuiet = t) :
    exec .guardTimerExpiry s = .next { t with lastClose := none } := by
  have hhappens : Happens .guardTimerExpiry s s.guardOver := happens_of_effect State.guardOver hheld rfl rfl
  rw [hhappens, State.finish, State.settle_of_exchange s.guardOver x hx, ht]
  rcases closeOf_cases s s.guardOver t with ⟨-, -, hnone, -⟩ | ⟨-, e⟩
  · cases hx.symm.trans hnone
  · rw [e]

theorem State.reportQuiet_of_guard (hquiet : s.lineQuiet = true) (hx : s.exchange = some x) (hp : x.phase = .guard) :
    s.reportQuiet = s.enterTransmit x := by
  rw [State.reportQuiet, if_pos hquiet, hx]
  dsimp only
  rw [hp]

theorem State.reportQuiet_of_answerGuard (hquiet : s.lineQuiet = true) (hx : s.exchange = some x)
    (hp : x.phase = .answerGuard) : s.reportQuiet = s.enterAnswer x := by
  rw [State.reportQuiet, if_pos hquiet, hx]
  dsimp only
  rw [hp]

theorem State.guardOver_quiet (hrx : s.line.rx = .hunt) (htx : s.line.tx = none) : s.guardOver.lineQuiet = true := by
  simp [State.lineQuiet, State.guardOver, hrx, htx]

/-- ANSWER_GUARD is left for ANSWER: a REFUSE is counted and the answer handed over. -/
theorem State.enterAnswer_eq {d : Decision} (hd : x.decision = some d) :
    s.enterAnswer x = { s with
      table := { s.table with entries := (s.countRefusal x.place d.verdict).table.entries }
      exchange := some { x with phase := .answer }
      line := { s.line with
        tx := some ((s.answerFrame x d).begin s.line.rate), echoList := [⟨0xE0#8, 2⟩], rx := .echo } } := by
  have h : s.enterAnswer x = ((s.countRefusal x.place d.verdict).startSending (s.answerFrame x d)).setExchange
      (some { x with phase := .answer }) := by
    rw [State.enterAnswer, hd]
  rw [h, State.startSending_eq]
  generalize s.answerFrame x d = f
  rw [s.countRefusal_frame]
  rfl

/-- Settles O44: what the quiet line is spoken on with, and each frame's fields. -/
theorem quietLinesAreSpokenOn : Obligations.QuietLinesAreSpokenOn := by
  refine ⟨fun s hheld hrx htx => ⟨fun x hx hp => ?_, fun x hx hp d hd => ?_⟩, fun s hheld => ⟨?_, fun x hx hg ha => ?_⟩,
    fun s x hk => ?_, fun s x e hplace => ?_⟩
  · have hreport := (State.reportQuiet_of_guard (s := s.guardOver) (State.guardOver_quiet hrx htx) hx hp).trans
      (s.guardOver.enterTransmit_eq x)
    rw [State.attemptFrame_countAttempt] at hreport
    refine ⟨_, exec_guardTimerExpiry hheld hx hreport, rfl, rfl, ?_, fun i => ?_, rfl, ?_⟩
    · exact congrArg State.command (s.guardOver.countAttempt_frame x.slot)
    · exact s.guardOver.countAttempt_slot x.slot i
    · rw [State.attemptFrame_dest]
      cases x.place <;> rfl
  · have hreport := (State.reportQuiet_of_answerGuard (s := s.guardOver) (State.guardOver_quiet hrx htx) hx hp).trans
      (State.enterAnswer_eq hd)
    refine ⟨_, exec_guardTimerExpiry hheld hx hreport, rfl, rfl, rfl, fun i => ?_, ?_⟩
    · exact s.guardOver.countRefusal_entry x.place d.verdict i
    · have hframe : s.guardOver.answerFrame x d = s.answerFrame x d := rfl
      rw [hframe, State.answerFrame, ctrlByte_eq]
      cases d.verdict <;> rfl
  · exact happens_of_effect State.guardOver hheld rfl rfl
  · refine exec_guardTimerExpiry (t := s.guardOver) hheld hx ?_
    rcases s.guardOver.reportQuiet_cases with ⟨y, -, hy, hp, -⟩ | ⟨y, -, hy, hp, -⟩ | ⟨-, e⟩
    · obtain rfl : x = y := Option.some.inj (Eq.trans (Eq.symm hx) hy)
      exact absurd hp hg
    · obtain rfl : x = y := Option.some.inj (Eq.trans (Eq.symm hx) hy)
      exact absurd hp ha
    · exact e
  · refine ⟨?_, fun hp => ?_, fun i hi y hy h hh => s.payload_of_record (State.attemptFrame_record (.inr hk) hi hy hh)⟩
    · rw [State.attemptFrame, hk]
      rfl
    · rw [State.attemptFrame_dest, hp]
      rfl
  · have hctrl := State.attemptFrame_ctrl (s := s) hplace
    refine ⟨?_, fun hk i hi y hy h hh => ?_, fun hk => ?_, fun o hk => ?_, fun hk => ?_, fun hk i hi y hy a ha => ?_⟩
    · rw [hctrl]
      cases x.kind <;> exact (ctrlByte_fields _ _).1
    · rw [hk] at hctrl
      obtain ⟨-, hcode, hseq⟩ := ctrlByte_fields .data (s.entry e).txSeq
      rw [hctrl]
      exact ⟨hcode, hseq, s.payload_of_record (State.attemptFrame_record (.inl hk) hi hy hh)⟩
    · rcases hk with hk | hk <;> rw [State.attemptFrame, hk] <;> exact ⟨rfl, rfl⟩
    · rw [State.attemptFrame, hk]
      exact ⟨rfl, rfl⟩
    · rw [State.attemptFrame, hk]
      exact ⟨rfl, rfl⟩
    · rw [hk] at hctrl
      obtain ⟨-, hcode, hseq⟩ := ctrlByte_fields .action (s.entry e).txSeq
      rw [hctrl]
      exact ⟨hcode, hseq, State.attemptFrame_action hk hi hy ha⟩

/-! ### The end of a wait (R27, R98, R99) -/

/-- A report reaches the line of no state. -/
theorem State.report_line (s : State) (p : Place) (o : AttemptOutcome) : (s.report p o).line = s.line := by
  rcases s.report_cases p o with ⟨-, h⟩ | ⟨e, -, ⟨-, -, h⟩ | ⟨-, h⟩⟩ <;> rw [h]
  · exact (State.completeAll_same _ e _).line
  · rfl

theorem State.closeDone_line (s : State) (x : Exchange) (o : Outcome) (d : Byte) (n : Nat) (g : Option Handle) :
    (s.closeDone x o d n g).line = s.line := by
  rw [State.closeDone]
  split
  · exact (s.completeHead_same _ _ _ _ _).line
  · rfl

/-- The end of a failed attempt leaves the line as it was, and the exchange, if it goes on, in GUARD (R30). -/
theorem State.failAttempt_after (s : State) (x : Exchange) (o : AttemptOutcome) :
    (s.failAttempt x o).line = s.line ∧ ∀ y ∈ (s.failAttempt x o).exchange, y.phase = .guard := by
  have htold := s.report_line x.place o
  have hcases := s.failAttempt_cases x o
  generalize s.report x.place o = told at htold hcases
  generalize s.failAttempt x o = t at hcases
  rcases hcases with ⟨-, rfl⟩ | ⟨-, -, rfl⟩ | ⟨-, rfl⟩ | ⟨-, rfl⟩
  · exact ⟨htold, fun y hy => by cases hy⟩
  · refine ⟨(State.closeDone_line _ x _ _ _ _).trans htold, fun y hy => ?_⟩
    rw [State.closeDone] at hy
    split at hy <;> cases hy
  · have hclosed := (told.closePending_eq x).1
    exact ⟨(congrArg State.line hclosed).trans htold, fun y hy => by
      cases (congrArg State.exchange hclosed).symm.trans hy⟩
  · exact ⟨htold, fun y hy => by cases hy; rfl⟩

/-- Where the effect leaves a wait for a reply standing, the end of the wait is a happening's end (R64, R97). -/
theorem happens_endOfWait (f : State → State) (hheld : s.resetHeld = false) (he : exec c s = endOfWait f s)
    (hf : f s = t) (hw : s.awaitsReply = true → t.awaitsReply = true) : Happens c s t := by
  rw [Happens, he]
  cases hawait : s.awaitsReply with
  | true =>
    rw [endOfWait_waiting s f hheld hawait, hf, State.finish, State.settle_of_awaitsReply (hw hawait)]
    rfl
  | false => rw [endOfWait_else s f hawait, happening_next s f hheld, hf]

theorem endsWait_of_effect (f : State → State) (hheld : s.resetHeld = false) (he : exec c s = endOfWait f s)
    (hf : f s = t) (hw : s.awaitsReply = true) : EndsWait c s t := by
  rw [EndsWait, he, endOfWait_waiting s f hheld hw, hf]

theorem State.noReply_awaiting (hx : s.exchange = some x) (hp : x.phase = .awaitReply) :
    s.noReply = s.failAttempt x .noReply := by
  rw [State.noReply, hx]
  dsimp only
  rw [hp]

theorem State.noReply_else (h : ∀ x ∈ s.exchange, x.phase ≠ .awaitReply) : s.noReply = s := by
  rw [State.noReply]
  split
  · next x hx =>
    have hp := h x hx
    split
    · next k => exact absurd k hp
    all_goals rfl
  · rfl

/-- The line once the gap timer has run out inside a frame (R99). -/
def State.gapOver (s : State) : State := { s with line := { s.line with rx := .hunt, gapTimer := 0#4 } }

theorem State.gapTimeUp_stray {f : InFrame} (hgap : s.line.gapTimer ≠ 0#4) (hrx : s.line.rx = .frame f)
    (hdest : f.dest = .stray) : s.gapTimeUp = s.gapOver := by
  rw [State.gapTimeUp, if_neg hgap, hrx]
  dsimp only
  rw [hdest]
  rfl

theorem State.gapTimeUp_reply {f : InFrame} (hgap : s.line.gapTimer ≠ 0#4) (hrx : s.line.rx = .frame f)
    (hdest : f.dest = .reply) (hx : s.exchange = some x) :
    s.gapTimeUp = s.gapOver.discardArrival.failAttempt x .gap := by
  have hgapReply : s.gapOver.gapReply = s.gapOver.discardArrival.failAttempt x .gap := by
    rw [State.gapReply, show s.gapOver.exchange = some x from hx]
  rw [State.gapTimeUp, if_neg hgap, hrx]
  dsimp only
  rw [hdest]
  exact hgapReply

theorem State.gapTimeUp_outside (h : s.line.gapTimer = 0#4 ∨ ∀ f, s.line.rx ≠ .frame f) : s.gapTimeUp = s := by
  rw [State.gapTimeUp]
  split
  · rfl
  · next hgap =>
    split
    · next f hf => exact absurd hf (h.resolve_left hgap f)
    all_goals rfl

/-- Settles O45: which wait each timer ends, and with what. -/
theorem repliesTimeOut : Obligations.RepliesTimeOut := by
  refine fun s hheld => ⟨fun ht => ?_, fun ht => ⟨fun x hx hp => ?_, fun hidle => ?_⟩, fun ht => ?_,
    fun ht f hrx => ⟨fun hdest => ?_, fun hdest x hx => ?_⟩⟩
  · exact happens_endOfWait State.replyTimeUp hheld rfl (if_pos ht) id
  · have hup : s.replyTimeUp = State.failAttempt { s with line := { s.line with replyTimer := 0#8 } } x .noReply :=
      (if_neg ht).trans (State.noReply_awaiting (s := { s with line := { s.line with replyTimer := 0#8 } }) hx hp)
    have hends := endsWait_of_effect (c := .replyTimerExpiry) State.replyTimeUp hheld rfl hup
      (s.awaitsReply_iff.mpr ⟨x, hx, .inl hp⟩)
    obtain ⟨hline, hguard⟩ := State.failAttempt_after { s with line := { s.line with replyTimer := 0#8 } } x .noReply
    generalize State.failAttempt { s with line := { s.line with replyTimer := 0#8 } } x .noReply = t at *
    refine ⟨hends, _, hends, ?_, fun y hy => ?_⟩
    · rw [State.finishWait_line, t.callChoice_frame]
      exact hline
    · rcases t.callChoice_grants with ⟨hkept, -⟩ | ⟨-, kind, place, slot, hgrant, -⟩
      · exact hguard y (hkept ▸ hy)
      · cases hgrant.symm.trans hy
        rfl
  · exact happens_endOfWait State.replyTimeUp hheld rfl
      ((if_neg ht).trans (State.noReply_else (s := { s with line := { s.line with replyTimer := 0#8 } }) hidle)) id
  · exact happens_endOfWait State.gapTimeUp hheld rfl (State.gapTimeUp_outside ht) id
  · exact happens_endOfWait State.gapTimeUp hheld rfl (State.gapTimeUp_stray ht hrx hdest) id
  · have hup := State.gapTimeUp_reply ht hrx hdest hx
    refine ⟨s.gapOver.discardArrival, fun hp => ?_, fun ha hr => ?_, s.gapOver.discardArrival_discarded, fun hnone => ?_⟩
    · exact endsWait_of_effect State.gapTimeUp hheld rfl hup (s.awaitsReply_iff.mpr ⟨x, hx, hp⟩)
    · refine happens_endOfWait State.gapTimeUp hheld rfl hup fun hw => ?_
      obtain ⟨y, hy, hp⟩ := s.awaitsReply_iff.mp hw
      obtain rfl : x = y := Option.some.inj (Eq.trans (Eq.symm hx) hy)
      exact (hp.elim ha hr).elim
    · rcases s.gapOver.discardArrival_cases with ⟨-, h⟩ | ⟨a, ha, -⟩ | ⟨a, h, ha, -⟩
      · exact h
      · cases hnone.symm.trans ha
      · cases hnone.symm.trans ha

end Sys2Proof.Machine
end

section
set_option Elab.async false
/-! PROOFS. The end of a failed attempt and the loss of a station (O46, O47). -/

namespace Sys2Proof.Machine

open Sys2Proof.Safety

variable {s t u : State} {c : Instr} {x : Exchange}

/-! ### The end of a failed attempt, by the case of R30 -/

theorem ExchangeKind.isRound_iff (k : ExchangeKind) : k.isRound = true ↔ k = .roundPoll ∨ k = .sync .round := by
  cases k with
  | sync origin => cases origin <;> simp [ExchangeKind.isRound]
  | _ => simp [ExchangeKind.isRound]

theorem State.failAttempt_lost {o : AttemptOutcome} (h : (s.report x.place o).placeFailed x.place = true) :
    s.failAttempt x o = { s.report x.place o with exchange := none } := by
  rw [State.failAttempt, if_pos h]
  rfl

theorem State.failAttempt_round {o : AttemptOutcome} (h : ¬ (s.report x.place o).placeFailed x.place = true)
    (hround : x.kind = .roundPoll ∨ x.kind = .sync .round) :
    s.failAttempt x o = { s.report x.place o with exchange := none } := by
  rw [State.failAttempt, if_neg h, if_pos (x.kind.isRound_iff.mpr hround)]
  rfl

theorem State.failAttempt_spent {o : AttemptOutcome} (h : ¬ (s.report x.place o).placeFailed x.place = true)
    (hkind : x.kind = .broadcast) (hspent : (s.report x.place o).broadcastSpent x.slot = true) :
    s.failAttempt x o = (s.report x.place o).closeDone x .echoFailed 0#8 0 none := by
  rw [State.failAttempt, if_neg h, if_neg (by rw [hkind]; exact nofun), if_pos ⟨hkind, hspent⟩]

/-- The exchange goes on: it ends with its command pending while RUN is 0, and returns to GUARD otherwise. -/
theorem State.failAttempt_goesOn {o : AttemptOutcome} (h : ¬ (s.report x.place o).placeFailed x.place = true)
    (hround : ¬ (x.kind = .roundPoll ∨ x.kind = .sync .round))
    (hspent : ¬ (x.kind = .broadcast ∧ (s.report x.place o).broadcastSpent x.slot = true)) :
    s.failAttempt x o =
      if (s.report x.place o).host.run = false then (s.report x.place o).closePending x
      else (s.report x.place o).retry x o := by
  rw [State.failAttempt, if_neg h, if_neg fun k => hround (x.kind.isRound_iff.mp k), if_neg hspent]

/-- Settles O46: each case of R30 on the state that has been told the outcome. -/
theorem failedAttemptsRetryOrEnd : Obligations.FailedAttemptsRetryOrEnd := by
  refine fun s x o ho => ⟨fun e hplace hstate hkind hlimit => ?_, fun hplace hkind i hi y hy => ?_⟩
  · have htold := State.report_below_limit ho hlimit
    rw [← hplace] at htold
    have hnotFailed : ¬ (s.report x.place o).placeFailed x.place = true := by
      rw [htold, hplace]
      simp [State.placeFailed, State.entry]
      exact hstate
    refine ⟨fun hround => ?_, fun hr hs => ?_⟩
    · rw [State.failAttempt_round hnotFailed hround, htold]
    · have hgoes := State.failAttempt_goesOn hnotFailed (not_or.mpr ⟨hr, hs⟩) fun k => hkind k.1
      rw [htold] at hgoes
      refine ⟨fun hrun => ?_, fun hrun => ?_⟩
      · rw [hgoes, if_pos hrun]
        exact State.closePending_eq _ x
      · rw [hgoes, if_neg (by rw [hrun]; exact nofun)]
        rfl
  · have htold : s.report x.place o = s := by rw [hplace]; rfl
    have hnotFailed : ¬ (s.report x.place o).placeFailed x.place = true := by
      rw [hplace]
      exact nofun
    have hspent : (s.report x.place o).broadcastSpent x.slot = decide (3 ≤ y.attempts.toNat) := by
      rw [htold, State.broadcastSpent, Option.mem_def.mp hi, Option.bind_some, Option.mem_def.mp hy]
    refine ⟨fun hthree hyplace h hh => ?_, fun hfew => ?_⟩
    · have hclosed := State.failAttempt_spent hnotFailed hkind (hspent.trans (decide_eq_true hthree))
      rw [htold, State.closeDone_broadcast hi hy hyplace, Option.mem_def.mp hh,
        (s.settled_ready h .echoFailed (.inl rfl)).1, (s.settled_ready h .echoFailed (.inl rfl)).2] at hclosed
      rw [hclosed]
      refine ⟨rfl, rfl, rfl, ?_, fun g hg => ?_, ⟨rfl, rfl, rfl, rfl, rfl⟩, rfl, rfl, rfl, rfl, rfl, rfl, rfl, rfl, rfl⟩
      · exact (s.record_readyRecord h h).trans (if_pos rfl)
      · exact (s.record_readyRecord h g).trans (if_neg (Ne.symm hg))
    · have hgoes := State.failAttempt_goesOn hnotFailed (by rw [hkind]; exact nofun) fun k => by
        rw [hspent] at k
        have := of_decide_eq_true k.2
        omega
      rw [htold] at hgoes
      refine ⟨fun hrun => ?_, fun hrun => ?_⟩
      · rw [hgoes, if_pos hrun]
        exact s.closePending_eq x
      · rw [hgoes, if_neg (by rw [hrun]; exact nofun)]
        rfl

/-! ### The loss of a station (R55, R107 to R109) -/

theorem State.setEntry_setEntry (s : State) (e : EntryId) (A B : Entry) :
    (s.setEntry e A).setEntry e B = s.setEntry e B := by
  simp [State.setEntry]

/-- How the loss of a station completes a command, by its slot (R108). -/
theorem State.lossOutcome_setEntry {e : EntryId} {E : Entry} {b : Bool} {i : SlotId} {y : Slot} (hy : s.slot i = some y) :
    (s.setEntry e E).lossOutcome e b i =
      if E.openAction = some i then
        if b = true then (.timedOut, 0#8, E.probeCount.toNat)
        else (.stationFailed, E.lastFault.code.setWidth 8, E.probeCount.toNat)
      else if y.cancelMark = true then (.cancelled, 0#8, 0)
      else (.stationFailed, E.lastFault.code.setWidth 8, 0) := by
  have hmarked : (s.setEntry e E).marked i = y.cancelMark := by
    rw [State.marked, State.setEntry_slot, hy]
  rw [State.lossOutcome, State.entry_setEntry, if_pos rfl, hmarked]

theorem State.report_at_limit {e : EntryId} {o : AttemptOutcome} (ho : o.failed = true)
    (hlimit : satInc (s.entry e).consecFail = (s.entry e).failLimit) :
    s.report (.station e) o = (s.setEntry e ((s.entry e).count o)).loseStation e false := by
  rcases s.report_cases (.station e) o with ⟨h, -⟩ | ⟨d, hd, ⟨-, -, h⟩ | ⟨hcount, -⟩⟩
  · cases h
  · cases hd
    exact h
  · cases hd
    rw [Entry.count_of_failed ho] at hcount
    exact absurd ⟨ho, hlimit⟩ hcount

/-- The WORKING that brings the probe count to the limit loses the station. -/
theorem State.replyOk_working_at_limit {e : EntryId} (hplace : x.place = .station e) (hk : x.kind = .probe)
    (hlimit : s.table.probeLimit.toNat ≤ (satInc (s.entry e).probeCount).toNat) (h : Header) (n : Nat) :
    s.replyOk x .working h n =
      { (s.setEntry e { s.entry e with
          consecFail := 0#4, probeCount := satInc (s.entry e).probeCount }).loseStation e true with exchange := none } := by
  have hok : s.replyOk x .working h n = ((s.report (.station e) .ok).probeWorking e).setExchange none := by
    rw [State.replyOk, hplace]
    dsimp only
    rw [hk]
  have hcounted : (s.setEntry e { s.entry e with consecFail := 0#4 }).setEntry e
      { (s.setEntry e { s.entry e with consecFail := 0#4 }).entry e with
        probeCount := satInc ((s.setEntry e { s.entry e with consecFail := 0#4 }).entry e).probeCount } =
      s.setEntry e { s.entry e with consecFail := 0#4, probeCount := satInc (s.entry e).probeCount } := by
    rw [State.setEntry_setEntry, State.entry_setEntry, if_pos rfl]
  rw [hok, State.report_ok, State.probeWorking, hcounted, if_neg]
  · rfl
  · rw [State.entry_setEntry, if_pos rfl]
    exact Nat.not_lt.mpr hlimit

/-- Settles O47: both ways a station is lost are the one transition to FAILED. -/
theorem lossCompletesTheList : Obligations.LossCompletesTheList := by
  refine ⟨rfl, fun s e o ho hs hlimit => ?_, fun s x f e hx hplace hk hj hs hlimit => ?_⟩
  · have hcount := Entry.count_of_failed ho (s.entry e)
    obtain ⟨hentry, hexchange, hlost⟩ := s.loseStation_lost ((s.entry e).count o) e false hs (by rw [hcount])
      (fun i y =>
        if (s.entry e).openAction = some i then
          (.stationFailed, o.code.setWidth 8, (s.entry e).probeCount.toNat)
        else if y.cancelMark = true then (.cancelled, 0#8, 0) else (.stationFailed, o.code.setWidth 8, 0))
      (fun i y hy => by rw [State.lossOutcome_setEntry hy, hcount]; rfl) _ (State.report_at_limit ho hlimit)
    refine ⟨?_, hexchange, hlost, fun x hplace => ?_⟩
    · rw [hentry, hcount, hlimit]
      rfl
    · rw [← hplace]
      refine State.failAttempt_lost ?_
      rw [hplace, State.placeFailed, hentry]
      rfl
  · have hclose := (State.closeReply_ok _ x f .working hx hj).trans (State.replyOk_working_at_limit hplace hk hlimit _ _)
    obtain ⟨hentry, hexchange, hqueue, hlist, hother, hblocks, htable, hhost, hinbound, hline, harbiter, hcommand, hlast, hreset,
      hread, hpending⟩ := s.loseStation_lost { s.entry e with
        consecFail := 0#4, probeCount := satInc (s.entry e).probeCount } e true hs rfl
      (fun i y =>
        if (s.entry e).openAction = some i then (.timedOut, 0#8, (satInc (s.entry e).probeCount).toNat)
        else if y.cancelMark = true then (.cancelled, 0#8, 0)
        else (.stationFailed, (s.entry e).lastFault.code.setWidth 8, 0))
      (fun i y hy => State.lossOutcome_setEntry hy) _ rfl
    dsimp only
    rw [hclose]
    exact ⟨hentry, rfl, hqueue, hlist, hother, hblocks, htable, hhost, hinbound, hline, harbiter, hcommand, hlast, hreset,
      hread, hpending⟩

end Sys2Proof.Machine
end

section
set_option Elab.async false
/-! PROOFS. The judgement of a reply (O48). -/

namespace Sys2Proof.Machine

open Sys2Proof.Safety

variable {s t u : State} {c : Instr} {x : Exchange}

/-! ### The conditions of R28, written out -/

theorem InFrame.codingMark_iff (f : InFrame) :
    f.codingMark = true ↔ f.shiftError = true ∨ f.charError = true ∨ f.oversize = true ∨ f.restarted = true := by
  simp [InFrame.codingMark, or_assoc]

theorem InFrame.shortMark_iff (f : InFrame) : f.shortMark = true ↔ ¬ f.codingMark = true ∧ f.count < 5 := by
  simp [InFrame.shortMark]

/-- The kinds of reply an exchange allows (R35, R36, R38, R49, R54). -/
theorem ExchangeKind.allows_iff (j : ExchangeKind) (k : FrameKind) :
    j.allows k = true ↔
      (j = .send ∧ (k = .ack ∨ k = .refuse ∨ k = .hold ∨ k = .nak)) ∨
      ((j = .poll ∨ j = .roundPoll) ∧ (k = .data ∨ k = .empty)) ∨
      ((∃ o, j = .sync o) ∧ k = .ack) ∨
      (j = .action ∧ (k = .ack ∨ k = .working ∨ k = .refuse ∨ k = .hold ∨ k = .nak)) ∨
      (j = .probe ∧ (k = .working ∨ k = .done ∨ k = .nak)) := by
  cases j <;> simp [ExchangeKind.allows]

/-- The payload lengths of a kind that some exchange allows (R28). -/
theorem FrameKind.payloadFits_iff {j : ExchangeKind} {k : FrameKind} (h : j.allows k = true) (n : Nat) :
    k.payloadFits n = true ↔
      ((k = .ack ∨ k = .nak ∨ k = .hold ∨ k = .empty ∨ k = .working) → n = 0) ∧
      ((k = .refuse ∨ k = .done) → n = 1) ∧ (k = .data → n ≤ 480) := by
  have hreply : k ≠ .poll ∧ k ≠ .probe ∧ k ≠ .sync ∧ k ≠ .action := by
    cases j <;> cases k <;> simp [ExchangeKind.allows] at h ⊢
  cases k with
  | data =>
    have hmax : FrameKind.data.payloadFits n = true ↔ n ≤ 480 := decide_eq_true_iff
    rw [hmax]
    simp
  | _ => simp [FrameKind.payloadFits] at hreply ⊢

/-- The replies whose sequence bit is examined (R32, R35, R49). -/
theorem ExchangeKind.examinesSeq_iff (j : ExchangeKind) (k : FrameKind) :
    j.examinesSeq k = true ↔ (j = .send ∨ j = .action) ∧ (k = .ack ∨ k = .refuse ∨ k = .working) := by
  cases j <;> simp [ExchangeKind.examinesSeq]

/-! ### The judgement, in order -/

theorem State.judgeReply_coding {f : InFrame} (h : f.codingMark = true) : s.judgeReply x f = (.coding, none) := by
  rw [State.judgeReply, if_pos h]

theorem State.judgeReply_short {f : InFrame} (h : f.shortMark = true) : s.judgeReply x f = (.short, none) := by
  rw [State.judgeReply, if_neg (f.shortMark_iff.mp h).1, if_pos h]

theorem State.judgeReply_check {f : InFrame} (hc : ¬ f.codingMark = true) (hs : ¬ f.shortMark = true)
    (h : f.checkFails = true) : s.judgeReply x f = (.check, none) := by
  rw [State.judgeReply, if_neg hc, if_neg hs, if_pos h]

/-- A reply without a fault of its frame is judged by its header. -/
theorem State.judgeReply_header {f : InFrame} {h : Header} (hc : ¬ f.codingMark = true) (hs : ¬ f.shortMark = true)
    (hk : ¬ f.checkFails = true) (hx : x.header = some h) :
    (h.dest ≠ 0#8 → s.judgeReply x f = (.wrongDest, none)) ∧
      (h.dest = 0#8 → h.src ≠ s.addressOf x.place → s.judgeReply x f = (.wrongSource, none)) ∧
      (h.dest = 0#8 → h.src = s.addressOf x.place → ctrlHigh h.ctrl ≠ 0#3 → s.judgeReply x f = (.badReply, none)) ∧
      (h.dest = 0#8 → h.src = s.addressOf x.place → ctrlHigh h.ctrl = 0#3 →
        (ctrlKind h.ctrl = none → s.judgeReply x f = (.badReply, none)) ∧
        ∀ k, ctrlKind h.ctrl = some k →
          s.judgeReply x f =
            if x.kind.allows k = true ∧ k.payloadFits (f.count - 5) = true ∧
              ¬ (x.kind.examinesSeq k = true ∧ ctrlSeq h.ctrl ≠ ctrlSeq (s.attemptFrame x).ctrl)
            then (if k = .nak then .naked else .ok, some k) else (.badReply, none)) := by
  refine ⟨fun hd => ?_, fun hd hsrc => ?_, fun hd hsrc hh => ?_, fun hd hsrc hh => ⟨fun hkind => ?_, fun k hkind => ?_⟩⟩
  all_goals rw [State.judgeReply, if_neg hc, if_neg hs, if_neg hk, hx]; dsimp only
  · rw [if_pos hd]
  · rw [if_neg (not_not.mpr hd), if_pos hsrc]
  · rw [if_neg (not_not.mpr hd), if_neg (not_not.mpr hsrc), if_pos hh]
  · rw [if_neg (not_not.mpr hd), if_neg (not_not.mpr hsrc), if_neg (not_not.mpr hh), hkind]
  · rw [if_neg (not_not.mpr hd), if_neg (not_not.mpr hsrc), if_neg (not_not.mpr hh), hkind]
    dsimp only
    cases x.kind.allows k with
    | false => simp
    | true =>
      cases k.payloadFits (f.count - 5) with
      | false => simp
      | true =>
        by_cases hseq : x.kind.examinesSeq k = true ∧ ctrlSeq h.ctrl ≠ ctrlSeq (s.attemptFrame x).ctrl
        · simp [hseq]
        · refine ((if_neg nofun).trans ((if_neg nofun).trans ((if_neg hseq).trans ?_))).trans
            (if_pos ⟨rfl, rfl, hseq⟩).symm
          by_cases hnak : k = .nak
          · rw [if_pos hnak, if_pos hnak, hnak]
          · rw [if_neg hnak, if_neg hnak]

/-- Every judgement but OK is a failure (R104). -/
theorem State.judgeReply_ok_or_failed (s : State) (x : Exchange) (f : InFrame) :
    (s.judgeReply x f).1 = .ok ∨ (s.judgeReply x f).1.failed = true := by
  unfold State.judgeReply
  repeat' split
  all_goals simp [AttemptOutcome.failed]

/-- A good End closes a reply, marked for a Shift left pending (R92, R94, R101). -/
theorem State.decodeGood_end_reply {f : InFrame} (hdest : f.dest = .reply) :
    s.decodeGood f 0xE1#8 = State.closeReply { s with line := { s.line with
        gapTimer := 0#4, rx := .hunt
        coding := if f.shiftPending then satInc s.line.coding else s.line.coding
        check := if ({ f with shiftPending := false, shiftError := f.shiftError || f.shiftPending } : InFrame).checkFails =
          true then satInc s.line.check else s.line.check } }
      { f with shiftPending := false, shiftError := f.shiftError || f.shiftPending } := by
  cases hpending : f.shiftPending with
  | false =>
    have hplain : ({ f with shiftPending := false, shiftError := f.shiftError || false } : InFrame) = f := by
      rw [Bool.or_false, ← hpending]
    rw [State.decodeGood_end hpending, State.closeFrame_reply _ _ hdest, hplain]
    rfl
  | true =>
    rw [State.decodeGood_end_shifted hpending,
      State.closeFrame_reply _ { f with shiftPending := false, shiftError := true } hdest, Bool.or_true]
    rfl

/-- With the line not held, a good stop bit changes only the two timers. -/
theorem State.heardInside_held (hline : s.line.lineHeld = false) :
    s.heardInside true =
      { s with line := { s.line with guardTimer := s.line.guardTime, gapTimer := s.line.gapTime } } := by
  have hheld : s.line.lineHeld = !true := hline
  rw [State.heardInside, ← hheld]

/-- Settles O48: each condition in its place, and the End that has it judged. -/
theorem repliesAreJudgedInOrder : Obligations.RepliesAreJudgedInOrder := by
  have hcoding {f : InFrame} := mt f.codingMark_iff.mp
  have hshort {f : InFrame} (h : ¬ f.count < 5) : ¬ f.shortMark = true := fun k => h (f.shortMark_iff.mp k).2
  have hcheck {f : InFrame} (h : ¬ ¬ (f.older = some f.accXor ∧ f.newer = some (f.accSum + f.accCount))) :
      ¬ f.checkFails = true := fun k => h (f.checkFails_iff.mp k).2.2
  refine ⟨fun s x f => ⟨fun hc => ?_, fun hc hs => ?_, fun hc hs hk => ?_, fun h hx => ⟨fun hc hs hk hd => ?_,
    fun hc hs hk hd hsrc => ?_, fun hc hs hk hd hsrc => ⟨fun hwrong => ?_, fun hright k hkind => ?_⟩⟩⟩, rfl,
    fun s f p hheld hline hrx hdest hp => ⟨fun hfails => ?_, fun hsound => ?_⟩, fun s x f hx hj => ?_⟩
  · rw [State.judgeReply_coding (f.codingMark_iff.mpr hc)]
  · rw [State.judgeReply_short (f.shortMark_iff.mpr ⟨fun k => hc (f.codingMark_iff.mp k), hs⟩)]
  · rw [State.judgeReply_check (fun k => hc (f.codingMark_iff.mp k)) (fun k => hs (f.shortMark_iff.mp k).2)
      (f.checkFails_iff.mpr ⟨hc, Nat.not_lt.mp hs, hk⟩)]
  · rw [(State.judgeReply_header (x := x) (hcoding hc) (hshort hs) (hcheck hk) hx).1 hd]
  · rw [(State.judgeReply_header (hcoding hc) (hshort hs) (hcheck hk) hx).2.1 hd hsrc]
  · obtain ⟨-, -, hhigh, hkind⟩ := State.judgeReply_header (hcoding hc) (hshort hs) (hcheck hk) hx
    by_cases hh : ctrlHigh h.ctrl = 0#3
    · obtain ⟨hnone, hsome⟩ := hkind hd hsrc hh
      cases hk' : ctrlKind h.ctrl with
      | none => rw [hnone hk']
      | some k =>
        rw [hsome k hk', if_neg]
        rintro ⟨hallows, hfits, hseq⟩
        rcases hwrong.resolve_left (fun k => k hh) k hk' with hno | hno | hno
        · exact hno ((x.kind.allows_iff k).mp hallows)
        · exact hno ((FrameKind.payloadFits_iff hallows _).mp hfits)
        · exact hseq ⟨(x.kind.examinesSeq_iff k).mpr ⟨hno.1, hno.2.1⟩, hno.2.2⟩
    · rw [hhigh hd hsrc hh]
  · obtain ⟨hhigh, hall⟩ := not_or.mp hright
    obtain ⟨-, -, -, hsome⟩ := State.judgeReply_header (hcoding hc) (hshort hs) (hcheck hk) hx
    push Not at hall
    obtain ⟨j, hj, hallowed, hfits, hseq⟩ := hall
    obtain rfl : j = k := Option.some.inj (hj.symm.trans hkind)
    have hallows := (x.kind.allows_iff j).mpr hallowed
    have hsame : ¬ (x.kind.examinesSeq j = true ∧ ctrlSeq h.ctrl ≠ ctrlSeq (s.attemptFrame x).ctrl) := by
      rintro ⟨hexamines, hdiffers⟩
      obtain ⟨hkinds, hreplies⟩ := (x.kind.examinesSeq_iff j).mp hexamines
      exact hdiffers (hseq hkinds hreplies)
    have hfits' := (FrameKind.payloadFits_iff hallows _).mpr hfits
    exact ((hsome hd hsrc (not_not.mp hhigh)).2 j hkind).trans (if_pos ⟨hallows, hfits', hsame⟩)
  · refine happens_characterReceived hheld ?_
    rw [State.receive_good hline hrx ⟨hp, rfl⟩, State.decodeGood_end_reply hdest,
      if_pos ((InFrame.checkFails_iff _).mpr hfails), State.heardInside_held hline]
  · refine happens_characterReceived hheld ?_
    rw [State.receive_good hline hrx ⟨hp, rfl⟩, State.decodeGood_end_reply hdest,
      if_neg fun k => hsound ((InFrame.checkFails_iff _).mp k), State.heardInside_held hline]
  · refine ⟨(s.judgeReply_ok_or_failed x f).resolve_left hj, s.discardArrival, s.discardArrival_discarded, ?_⟩
    rcases s.closeReply_cases f with ⟨hnone, -⟩ | ⟨y, hy, ⟨k, hk, -⟩ | ⟨-, h⟩⟩
    · cases hx.symm.trans hnone
    · obtain rfl : x = y := Option.some.inj (hx.symm.trans hy)
      rw [hk] at hj
      exact absurd rfl hj
    · obtain rfl : x = y := Option.some.inj (hx.symm.trans hy)
      exact h

end Sys2Proof.Machine
end

section
set_option Elab.async false
/-! PROOFS. The replies evaluated OK (O49, O50). -/

namespace Sys2Proof.Machine

open Sys2Proof.Safety

variable {s t u : State} {c : Instr} {x : Exchange}

/-! ### What a reply evaluated OK does, by its kind -/

/-- A report of OK followed by any change of the station's own entry. -/
theorem State.setEntry_report_ok (s : State) (e : EntryId) (E : Entry) :
    (s.report (.station e) .ok).setEntry e E = s.setEntry e E := by
  rw [State.report_ok, State.setEntry_setEntry]

theorem State.entry_report_ok (s : State) (e : EntryId) :
    (s.report (.station e) .ok).entry e = { s.entry e with consecFail := 0#4 } := by
  rw [State.report_ok, State.entry_setEntry, if_pos rfl]

/-- The replies that finish a sequenced command: ACK and REFUSE to a SEND or an ACTION (R32, R35, R38, R49). -/
theorem State.replyOk_finishes {e : EntryId} (hplace : x.place = .station e) {k : FrameKind} {o : Outcome} {d : Byte}
    (hk : (x.kind = .send ∧ k = .ack ∧ o = .delivered ∧ d = 0#8) ∨
      (x.kind = .send ∧ k = .refuse ∧ o = .refused ∧ d = x.firstPayload.getD 0#8) ∨
      (x.kind = .action ∧ k = .ack ∧ o = .doneOk ∧ d = 0#8) ∨
      (x.kind = .action ∧ k = .refuse ∧ o = .refused ∧ d = x.firstPayload.getD 0#8)) (h : Header) (n : Nat) :
    s.replyOk x k h n =
      (s.setEntry e { s.entry e with consecFail := 0#4, txSeq := !(s.entry e).txSeq }).closeDone x o d 0 none := by
  have hflip : (s.report (.station e) .ok).setEntry e ((s.report (.station e) .ok).entry e).flipTx =
      s.setEntry e { s.entry e with consecFail := 0#4, txSeq := !(s.entry e).txSeq } := by
    rw [State.setEntry_report_ok, State.entry_report_ok]
    rfl
  rw [State.replyOk, hplace]
  dsimp only
  rw [hflip]
  rcases hk with ⟨hk, rfl, rfl, rfl⟩ | ⟨hk, rfl, rfl, rfl⟩ | ⟨hk, rfl, rfl, rfl⟩ | ⟨hk, rfl, rfl, rfl⟩ <;> rw [hk]

/-- HOLD loads the backoff timer and keeps the command (R37). -/
theorem State.replyOk_hold {e : EntryId} (hplace : x.place = .station e) (hk : x.kind = .send ∨ x.kind = .action)
    (h : Header) (n : Nat) :
    s.replyOk x .hold h n =
      (s.setEntry e { s.entry e with
        consecFail := 0#4, backoffTimer := { beats := s.table.holdBackoff, passed := 0 } }).closePending x := by
  have hload : (s.report (.station e) .ok).loadBackoff e = s.setEntry e { s.entry e with
      consecFail := 0#4, backoffTimer := { beats := s.table.holdBackoff, passed := 0 } } := by
    rw [State.loadBackoff, State.setEntry_report_ok, State.entry_report_ok, State.report_ok]
    rfl
  rw [State.replyOk, hplace]
  dsimp only
  rw [hload]
  rcases hk with hk | hk <;> rw [hk]

theorem State.replyOk_empty_poll {e : EntryId} (hplace : x.place = .station e) (hk : x.kind = .poll) (h : Header) (n : Nat) :
    s.replyOk x .empty h n =
      (s.setEntry e { s.entry e with consecFail := 0#4 }).closeDone x .empty 0#8 0 none := by
  rw [← State.report_ok, State.replyOk, hplace]
  dsimp only
  rw [hk]

theorem State.replyOk_empty_round {e : EntryId} (hplace : x.place = .station e) (hk : x.kind = .roundPoll)
    (h : Header) (n : Nat) :
    s.replyOk x .empty h n = (s.setEntry e { s.entry e with consecFail := 0#4 }).setExchange none := by
  rw [← State.report_ok, State.replyOk, hplace]
  dsimp only
  rw [hk]

theorem State.replyOk_sync {e : EntryId} {o : Work} (hplace : x.place = .station e) (hk : x.kind = .sync o)
    (k : FrameKind) (h : Header) (n : Nat) :
    s.replyOk x k h n = (s.setEntry e { s.entry e with
      consecFail := 0#4, txSeq := false, rxExpect := false, syncNeeded := false }).setExchange none := by
  have hsynced : (s.report (.station e) .ok).synced e = s.setEntry e { s.entry e with
      consecFail := 0#4, txSeq := false, rxExpect := false, syncNeeded := false } := by
    rw [State.synced, State.setEntry_report_ok, State.entry_report_ok]
  rw [State.replyOk, hplace]
  dsimp only
  rw [hk, hsynced]

theorem State.replyOk_working_action {e : EntryId} (hplace : x.place = .station e) (hk : x.kind = .action)
    (h : Header) (n : Nat) :
    s.replyOk x .working h n = (s.setEntry e { s.entry e with
      state := .working, consecFail := 0#4, txSeq := !(s.entry e).txSeq, openAction := x.slot
      probeCount := 0#8, probeTimer := { beats := s.table.probeInterval, passed := 0 } }).setExchange none := by
  have hopen : (s.report (.station e) .ok).openAction e x.slot = s.setEntry e { s.entry e with
      state := .working, consecFail := 0#4, txSeq := !(s.entry e).txSeq, openAction := x.slot
      probeCount := 0#8, probeTimer := { beats := s.table.probeInterval, passed := 0 } } := by
    rw [State.openAction, State.setEntry_report_ok, State.entry_report_ok, State.report_ok]
    rfl
  rw [State.replyOk, hplace]
  dsimp only
  rw [hk, hopen]

theorem State.replyOk_working_below_limit {e : EntryId} (hplace : x.place = .station e) (hk : x.kind = .probe)
    (hlimit : (satInc (s.entry e).probeCount).toNat < s.table.probeLimit.toNat) (h : Header) (n : Nat) :
    s.replyOk x .working h n = (s.setEntry e { s.entry e with
      consecFail := 0#4, probeCount := satInc (s.entry e).probeCount
      probeTimer := { beats := s.table.probeInterval, passed := 0 } }).setExchange none := by
  have hcounted : (s.report (.station e) .ok).setEntry e { (s.report (.station e) .ok).entry e with
      probeCount := satInc ((s.report (.station e) .ok).entry e).probeCount } =
      s.setEntry e { s.entry e with consecFail := 0#4, probeCount := satInc (s.entry e).probeCount } := by
    rw [State.setEntry_report_ok, State.entry_report_ok]
  have hprobe : (s.report (.station e) .ok).probeWorking e = s.setEntry e { s.entry e with
      consecFail := 0#4, probeCount := satInc (s.entry e).probeCount
      probeTimer := { beats := s.table.probeInterval, passed := 0 } } := by
    rw [State.probeWorking, hcounted]
    dsimp only
    rw [State.setEntry_setEntry, State.entry_setEntry, if_pos rfl]
    exact if_pos hlimit
  rw [State.replyOk, hplace]
  dsimp only
  rw [hk, hprobe]

theorem State.replyOk_done {e : EntryId} (hplace : x.place = .station e) (hk : x.kind = .probe) (h : Header) (n : Nat) :
    s.replyOk x .done h n =
      ((s.setEntry e { s.entry e with consecFail := 0#4 }).probeDone e (x.firstPayload.getD 0#8)).setExchange none := by
  rw [← State.report_ok, State.replyOk, hplace]
  dsimp only
  rw [hk]

/-! ### The exchange ends with its command finished -/

/-- What `closeDone` leaves of the state before the station's entry changed, by what becomes of the head's record. -/
theorem State.closeDone_after {e : EntryId} {i : SlotId} {behind : List SlotId} {y : Slot} {E : Entry} (hi : x.slot = some i)
    (hs : SlotsListed s) (hy : s.slot i = some y) (hl : (s.entry e).pendingList = i :: behind)
    (o : Outcome) (d : Byte) (n : Nat) (g : Option Handle) (ht : t = (s.setEntry e E).closeDone x o d n g)
    (hE : E.pendingList = (s.entry e).pendingList) :
    t.exchange = none ∧ t.entry e = { E with pendingList := behind.dropWhile s.marked } ∧
      HeadCompleted s t e i behind (y.completion o d n (s.completedHandle y.handle o g)) ∧
      SameBlocks (s.settled y.handle o) t ∧ t.host = (s.settled y.handle o).host ∧
      ∀ h, y.handle = some h → (∀ j ∈ behind, (s.slot j).bind Slot.handle ≠ some h) →
        t.record h = (s.settled y.handle o).record h := by
  obtain ⟨hhead, hentry, hblocks, hhost, -, hrecord⟩ := s.completeHead_after E e i behind y o d n g hs hy hl hE
  rw [State.closeDone, hi] at ht
  dsimp only at ht
  rw [ht]
  exact ⟨rfl, hentry, hhead, hblocks, hhost, hrecord⟩

/-- A command without a record is left pending. -/
theorem State.closePending_noRecord {i : SlotId} {y : Slot} (hi : x.slot = some i) (hy : s.slot i = some y)
    (hnone : y.handle = none) : s.closePending x = s.setExchange none := by
  have hrecord : (x.slot.bind fun i => (s.slot i).bind Slot.handle) = none := by
    rw [hi, Option.bind_some, hy]
    exact hnone
  rw [State.closePending, State.requeueRecord, hrecord]

/-- A command that names no record is finished. -/
theorem State.closeDone_noRecord {e : EntryId} {i : SlotId} {behind : List SlotId} {y : Slot} {E : Entry}
    (hi : x.slot = some i) (hs : SlotsListed s) (hy : s.slot i = some y) (hl : (s.entry e).pendingList = i :: behind)
    (hnone : y.handle = none) (o : Outcome) (d : Byte) (ht : t = (s.setEntry e E).closeDone x o d 0 none)
    (hE : E.pendingList = (s.entry e).pendingList) :
    t.exchange = none ∧ t.entry e = { E with pendingList := behind.dropWhile s.marked } ∧
      HeadCompleted s t e i behind (y.completion o d 0 none) ∧ SameBlocks s t ∧ t.host = s.host := by
  obtain ⟨hexchange, hentry, hhead, hblocks, hhost, -⟩ := State.closeDone_after hi hs hy hl o d 0 none ht hE
  rw [hnone] at hhead hblocks hhost
  exact ⟨hexchange, hentry, hhead, hblocks, hhost⟩

/-- The records of the commands behind the head are not the head's (the owners of R133). -/
theorem RecordsOwned.behind_other {e : EntryId} {i : SlotId} {behind : List SlotId} {y : Slot} {h : Handle}
    (howned : RecordsOwned s) (hs : SlotsListed s) (hy : s.slot i = some y) (hh : y.handle = some h)
    (hl : (s.entry e).pendingList = i :: behind) : ∀ j ∈ behind, (s.slot j).bind Slot.handle ≠ some h := by
  obtain ⟨-, -, hunique, -⟩ := howned
  obtain ⟨-, -, hnodup, -⟩ := hs
  intro j hj hjh
  obtain rfl : j = i := hunique j i h hjh (by rw [hy]; exact hh)
  exact (List.nodup_cons.mp (hl ▸ hnodup e)).1 hj

/-- A SEND that is refused, or delivered with KEEP set, leaves its record READY. -/
theorem State.closeDone_ready {e : EntryId} {i : SlotId} {behind : List SlotId} {y : Slot} {E : Entry} {h : Handle}
    {o : Outcome} (hi : x.slot = some i) (hs : SlotsListed s) (hy : s.slot i = some y)
    (hl : (s.entry e).pendingList = i :: behind) (hh : y.handle = some h)
    (howned : RecordsOwned s) (ho : o.delivers = false ∨ (s.record h).keep = true) (d : Byte)
    (ht : t = (s.setEntry e E).closeDone x o d 0 none) (hE : E.pendingList = (s.entry e).pendingList) :
    t.exchange = none ∧ t.entry e = { E with pendingList := behind.dropWhile s.marked } ∧
      HeadCompleted s t e i behind (y.completion o d 0 (some h)) ∧
      t.record h = { s.record h with state := .ready, keep := false } ∧ SameBlocks s t ∧ t.host = s.host := by
  obtain ⟨hexchange, hentry, hhead, hblocks, hhost, hrecord⟩ := State.closeDone_after hi hs hy hl o d 0 none ht hE
  obtain ⟨hsettled, hhandle⟩ := s.settled_ready h o ho
  have hown := hrecord h hh (RecordsOwned.behind_other howned hs hy hh hl)
  rw [hh, hsettled] at hown hblocks hhost
  rw [hh, hhandle] at hhead
  exact ⟨hexchange, hentry, hhead, hown.trans ((s.record_readyRecord h h).trans (if_pos rfl)), hblocks, hhost⟩

/-- A SEND delivered with KEEP clear frees its record. -/
theorem State.closeDone_freed {e : EntryId} {i : SlotId} {behind : List SlotId} {y : Slot} {E : Entry} {h : Handle}
    {o : Outcome} (hi : x.slot = some i) (hs : SlotsListed s) (hy : s.slot i = some y)
    (hl : (s.entry e).pendingList = i :: behind) (hh : y.handle = some h)
    (howned : RecordsOwned s) (ho : o.delivers = true) (hkeep : (s.record h).keep = false) (d : Byte)
    (ht : t = (s.setEntry e E).closeDone x o d 0 none) (hE : E.pendingList = (s.entry e).pendingList) :
    HeadCompleted s t e i behind (y.completion o d 0 none) ∧ t.record h = Descriptor.free ∧
      BlocksReturned s t (s.record h).chain := by
  obtain ⟨-, -, hhead, ⟨hfree, hbytes, hlow, hhigh, hrestraint⟩, hhost, hrecord⟩ :=
    State.closeDone_after hi hs hy hl o d 0 none ht hE
  obtain ⟨hsettled, hhandle⟩ := s.settled_freed h o ho hkeep
  have hown := hrecord h hh (RecordsOwned.behind_other howned hs hy hh hl)
  rw [hh, hsettled] at hown hfree hbytes hlow hhigh hrestraint hhost
  rw [hh, hhandle] at hhead
  refine ⟨hhead, hown.trans ((s.record_freeRecord h h).trans (if_pos rfl)), ?_⟩
  have hreturned := s.freeRecord_returned h
  rw [BlocksReturned, ← hfree, ← hbytes, ← hlow, ← hhigh, ← hrestraint, ← hhost] at hreturned
  exact hreturned

/-- Settles O49: each reply's effects, on the state that has been told OK. -/
theorem repliesToSendAndSync : Obligations.RepliesToSendAndSync := by
  intro s x f e hx hplace
  refine ⟨fun i behind y hi hl hy hs => ⟨fun hk h hh howned => ⟨fun hj => ?_, fun hj => ?_, fun hj => ?_⟩,
    fun hk hnone => ⟨fun hj => ?_, fun hj => ?_, fun hj => ?_⟩, fun hk hnone hj => ?_⟩, fun hk hj => ?_,
    fun o hk hj => ?_⟩
  all_goals have hclose := State.closeReply_ok s x f _ hx hj
  · rw [State.replyOk_finishes hplace (.inl ⟨hk, rfl, rfl, rfl⟩)] at hclose
    obtain ⟨hexchange, hentry, -⟩ := State.closeDone_after hi hs hy hl _ _ _ _ hclose rfl
    refine ⟨hexchange, hentry, fun hkeep => ?_, fun hkeep => ?_⟩
    · exact State.closeDone_freed hi hs hy hl hh howned rfl hkeep _ hclose rfl
    · obtain ⟨-, -, hready⟩ := State.closeDone_ready hi hs hy hl hh howned (.inr hkeep) _ hclose rfl
      exact hready
  · rw [State.replyOk_finishes hplace (.inr (.inl ⟨hk, rfl, rfl, rfl⟩))] at hclose
    exact State.closeDone_ready hi hs hy hl hh howned (.inl rfl) _ hclose rfl
  · rw [State.replyOk_hold hplace (.inl hk)] at hclose
    obtain ⟨hframe, hrecord⟩ := State.closePending_eq (s := s.setEntry e _) x
    rw [← hclose] at hframe hrecord
    refine ⟨hframe, fun g => (hrecord g).trans ?_⟩
    have hslot : (x.slot.bind s.slot).bind Slot.handle = some h := by rw [hi, Option.bind_some, hy]; exact hh
    by_cases hg : g = h
    · subst hg
      exact if_congr ⟨fun k => ⟨rfl, k.2⟩, fun k => ⟨hslot, k.2⟩⟩ rfl rfl
    · exact (if_neg fun k => hg (Option.some.inj (k.1.symm.trans hslot))).trans (if_neg fun k => hg k.1).symm
  · rw [State.replyOk_finishes hplace (.inr (.inr (.inl ⟨hk, rfl, rfl, rfl⟩)))] at hclose
    exact State.closeDone_noRecord hi hs hy hl hnone _ _ hclose rfl
  · rw [State.replyOk_finishes hplace (.inr (.inr (.inr ⟨hk, rfl, rfl, rfl⟩)))] at hclose
    exact State.closeDone_noRecord hi hs hy hl hnone _ _ hclose rfl
  · rw [State.replyOk_hold hplace (.inr hk)] at hclose
    exact hclose.trans (State.closePending_noRecord (s := s.setEntry e _) hi hy hnone)
  · rw [State.replyOk_empty_poll hplace hk] at hclose
    exact State.closeDone_noRecord hi hs hy hl hnone _ _ hclose rfl
  · exact hclose.trans (State.replyOk_empty_round hplace hk _ _)
  · exact hclose.trans (State.replyOk_sync hplace hk _ _ _)

/-- A table that differs in its entries alone still does after an entry is set. -/
theorem State.setEntry_table {T : StationTable} {e : EntryId} {E : Entry}
    (h : u.table = { T with entries := u.table.entries }) :
    (u.setEntry e E).table = { T with entries := (u.setEntry e E).table.entries } :=
  congrArg (fun V : StationTable => { V with entries := (u.setEntry e E).table.entries }) h

/-- Settles O50: WORKING opens and follows the action, DONE ends it. -/
theorem actionsAreFollowedByProbes : Obligations.ActionsAreFollowedByProbes := by
  intro s x f e hx hplace
  refine ⟨fun hk hj => ?_, fun hk hj hlimit => ?_, fun hk hj i behind y hopen hl hy hnone hs => ?_⟩
  all_goals have hclose := State.closeReply_ok s x f _ hx hj
  · exact hclose.trans (State.replyOk_working_action hplace hk _ _)
  · exact hclose.trans (State.replyOk_working_below_limit hplace hk hlimit _ _)
  · rw [State.replyOk_done hplace hk, State.probeDone, State.entry_setEntry, if_pos rfl, hopen] at hclose
    dsimp only at hclose
    obtain ⟨hhead, hentry, hblocks, hhost, -, -⟩ := s.completeHead_after { s.entry e with consecFail := 0#4 } e i behind y
      .doneOk (x.firstPayload.getD 0#8) (s.entry e).probeCount.toNat none hs hy hl rfl
    obtain ⟨hqueue, hslots, hrecords, hentries, hcommand, htable, hrest⟩ := hhead
    rw [hnone] at hqueue hblocks hhost
    rw [hclose]
    refine ⟨rfl, ?_, ⟨hqueue, hslots, hrecords, fun d hd => ?_, hcommand, ?_, hrest⟩, hblocks, hhost⟩
    · rw [State.setExchange_entry, State.entry_setEntry, if_pos rfl, hentry]
      rfl
    · exact (State.entry_setEntry _ _ _ _).trans ((if_neg (Ne.symm hd)).trans (hentries d hd))
    · exact State.setEntry_table htable

end Sys2Proof.Machine
end

section
set_option Elab.async false
/-! PROOFS. The decision on an inbound DATA (O51). -/

namespace Sys2Proof.Machine

open Sys2Proof.Safety

variable {s t u : State} {c : Instr} {x : Exchange}

/-! ### The verdict (R40, R142) -/

/-- The verdict on a sound DATA: a duplicate by its sequence bit, else R142's decision. -/
def State.verdictOn (s : State) (e : EntryId) (h : Header) (n : Nat) : Verdict :=
  if ctrlSeq h.ctrl = (s.entry e).rxExpect then decideArrival (s.entry e) s.inbound.arrival n else .duplicate

theorem State.verdictOn_duplicate {e : EntryId} {h : Header} (hseq : ctrlSeq h.ctrl ≠ (s.entry e).rxExpect) (n : Nat) :
    s.verdictOn e h n = .duplicate := if_neg hseq

theorem State.verdictOn_long {e : EntryId} {h : Header} {n : Nat} (hseq : ctrlSeq h.ctrl = (s.entry e).rxExpect)
    (hlong : (s.entry e).inboundLimit < n) : s.verdictOn e h n = .long :=
  (if_pos hseq).trans (if_pos hlong)

theorem State.verdictOn_shortRecord {e : EntryId} {h : Header} {n : Nat} (hseq : ctrlSeq h.ctrl = (s.entry e).rxExpect)
    (hshort : n < (s.entry e).inboundLimit) (hmode : (s.entry e).lengthMode = .exact) :
    s.verdictOn e h n = .shortRecord :=
  (if_pos hseq).trans ((if_neg (Nat.lt_asymm hshort)).trans (if_pos ⟨hmode, hshort⟩))

/-- A record whose length is as the entry asks is decided by its arrival. -/
theorem State.verdictOn_arrival {e : EntryId} {h : Header} {n : Nat} {a : Arrival} {v : Verdict}
    (hseq : ctrlSeq h.ctrl = (s.entry e).rxExpect) (hn : n ≤ (s.entry e).inboundLimit)
    (hexact : (s.entry e).lengthMode = .exact → n = (s.entry e).inboundLimit) (ha : s.inbound.arrival = some a)
    (hv : (a.stop = some .noHandle ∧ a.handle = none ∧ v = .noRoom true) ∨
      (a.stop = some .noBlock ∧ v = .noRoom false) ∨ ∃ g, a.stop = none ∧ a.handle = some g ∧ v = .accepted g) :
    s.verdictOn e h n = v := by
  have hfits : ¬ ((s.entry e).lengthMode = .exact ∧ n < (s.entry e).inboundLimit) :=
    fun ⟨hmode, hlt⟩ => Nat.ne_of_lt hlt (hexact hmode)
  refine (if_pos hseq).trans ((if_neg (Nat.not_lt.mpr hn)).trans ((if_neg hfits).trans ?_))
  rw [ha]
  obtain ⟨handle, source, seen, stop⟩ := a
  rcases hv with ⟨rfl, rfl, rfl⟩ | ⟨rfl, rfl⟩ | ⟨g, rfl, rfl, rfl⟩
  · rfl
  · cases handle <;> rfl
  · rfl

/-! ### What the decision does (R33, R40, R144) -/

/-- A sound DATA on the state before OK was told of it. -/
theorem State.replyOk_data {e : EntryId} (hplace : x.place = .station e) (hk : x.kind = .poll ∨ x.kind = .roundPoll)
    (h : Header) (n : Nat) :
    s.replyOk x .data h n =
      ((s.setEntry e (Entry.afterVerdict { s.entry e with consecFail := 0#4 } (s.verdictOn e h n))).actOnVerdict
        (s.verdictOn e h n) n).setExchange
          (some { x with
            phase := .answerGuard, outcome := some .ok, decision := some ⟨s.verdictOn e h n, ctrlSeq h.ctrl, n⟩ }) := by
  have hdecide : s.replyOk x .data h n = s.decideData x e h n := by
    rw [State.replyOk, hplace]
    dsimp only
    rcases hk with hk | hk <;> rw [hk]
  have hverdict : (if ctrlSeq h.ctrl = ((s.report x.place .ok).entry e).rxExpect
      then decideArrival ((s.report x.place .ok).entry e) (s.report x.place .ok).inbound.arrival n else .duplicate) =
      s.verdictOn e h n := by
    rw [hplace, State.entry_report_ok, State.report_ok]
    rfl
  rw [hdecide, State.decideData, hverdict, hplace, State.setEntry_report_ok, State.entry_report_ok]

/-- Everything the decision leaves but the record: the exchange in ANSWER_GUARD, the entry, and all it does not reach. -/
abbrev DataDecided (s t : State) (x : Exchange) (e : EntryId) (h : Header) (n : Nat) (v : Verdict) : Prop :=
  t.exchange = some { x with
    phase := .answerGuard, outcome := some .ok, decision := some ⟨v, h.ctrl.getLsbD 4, n⟩ } ∧
  t.entry e = Entry.afterVerdict { s.entry e with consecFail := 0#4 } v ∧
  t.inbound.arrival = none ∧ t.queue = s.queue ∧ t.command = s.command ∧ t.line = s.line ∧
  t.arbiter = s.arbiter ∧ (∀ j, j ≠ e → t.entry j = s.entry j) ∧
  t.table = { s.table with entries := t.table.entries } ∧ t.resetHeld = s.resetHeld ∧
  t.lastClose = s.lastClose ∧ t.readData = s.readData ∧ t.pending = s.pending

/-- The arrival's handle and blocks have gone back, and the Inbound List is as it was. -/
abbrev ArrivalReturned (s t : State) : Prop :=
  t.inbound.list = s.inbound.list ∧
  (s.inbound.arrival.bind Arrival.handle = none → t.store = s.store ∧ t.host = s.host) ∧
  ∀ a ∈ s.inbound.arrival, ∀ g ∈ a.handle, t.record g = Descriptor.free ∧
    (∀ k, k ≠ g → t.record k = s.record k) ∧ BlocksReturned s t (s.record g).chain

/-- A verdict that takes no record returns the arrival. -/
theorem State.replyOk_data_discards {e : EntryId} {h : Header} {n : Nat} {v : Verdict} (hplace : x.place = .station e)
    (hk : x.kind = .poll ∨ x.kind = .roundPoll) (hv : s.verdictOn e h n = v) (hnot : ∀ g, v ≠ .accepted g)
    (ht : t = s.replyOk x .data h n) : DataDecided s t x e h n v ∧ ArrivalReturned s t := by
  rw [State.replyOk_data hplace hk, hv] at ht
  have hact : ∀ u : State, u.actOnVerdict v n = u.discardArrival := by
    intro u
    cases v with
    | accepted g => exact absurd rfl (hnot g)
    | _ => rfl
  rw [hact] at ht
  obtain ⟨hinbound, -, hcommand, hqueue, htable, harbiter, hline, hlast, hreset, hread, hpending, hnone, hsome⟩ :=
    State.discardArrival_discarded (s := s.setEntry e (Entry.afterVerdict { s.entry e with consecFail := 0#4 } v))
  rw [ht]
  have hlist := congrArg InboundPath.list hinbound
  have hentry (j : EntryId) := State.entry_congr htable j
  refine ⟨⟨rfl, ?_, ?_, hqueue, hcommand, hline, harbiter, fun j hj => ?_, ?_, hreset, hlast, hread, hpending⟩,
    ?_, hnone, fun a ha g hg => hsome g ?_⟩
  · exact (hentry e).trans ((State.entry_setEntry _ _ _ _).trans (if_pos rfl))
  · exact congrArg InboundPath.arrival hinbound
  · exact (hentry j).trans ((State.entry_setEntry _ _ _ _).trans (if_neg (Ne.symm hj)))
  · exact htable.trans (congrArg (fun T : StationTable => { s.table with entries := T.entries }) htable).symm
  · exact hlist
  · exact (congrArg (·.bind Arrival.handle) (Option.mem_def.mp ha)).trans hg

/-- An accepted record joins the Inbound List. -/
theorem State.replyOk_data_accepts {e : EntryId} {h : Header} {n : Nat} {g : Handle} (hplace : x.place = .station e)
    (hk : x.kind = .poll ∨ x.kind = .roundPoll) (hv : s.verdictOn e h n = .accepted g)
    (ht : t = s.replyOk x .data h n) :
    DataDecided s t x e h n (.accepted g) ∧ t.inbound.list = s.inbound.list ++ [g] ∧
      t.record g = { s.record g with state := .inbound, length := n } ∧
      (∀ k, k ≠ g → t.record k = s.record k) ∧ SameBlocks s t ∧ t.host = s.host := by
  rw [State.replyOk_data hplace hk, hv] at ht
  rw [ht]
  refine ⟨⟨rfl, ?_, rfl, rfl, rfl, rfl, rfl, fun j hj => ?_, rfl, rfl, rfl, rfl, rfl⟩, rfl, ?_, fun k hk => ?_,
    ⟨rfl, rfl, rfl, rfl, rfl⟩, rfl⟩
  · exact (State.entry_setEntry _ _ _ _).trans (if_pos rfl)
  · exact (State.entry_setEntry _ _ _ _).trans (if_neg (Ne.symm hj))
  · exact (State.record_setRecord _ _ _ _).trans (if_pos rfl)
  · exact (State.record_setRecord _ _ _ _).trans (if_neg (Ne.symm hk))

/-- Settles O51: the verdict, then what it does. -/
theorem inboundDataIsDecided : Obligations.InboundDataIsDecided := by
  intro s x f e h hx hplace hk hh hj
  have hclose := State.closeReply_ok s x f _ hx hj
  rw [hh] at hclose
  refine ⟨fun hseq => ?_, fun hseq => ⟨fun hlong => ?_, fun hshort hmode => ?_, fun hn hexact =>
    ⟨fun a ha hstop hhandle => ?_, fun a ha hstop => ?_, fun g ⟨a, ha, hstop, hhandle⟩ => ?_⟩⟩⟩
  · exact State.replyOk_data_discards hplace hk (State.verdictOn_duplicate hseq _) nofun hclose
  · exact State.replyOk_data_discards hplace hk (State.verdictOn_long hseq hlong) nofun hclose
  · exact State.replyOk_data_discards hplace hk (State.verdictOn_shortRecord hseq hshort hmode) nofun hclose
  · exact State.replyOk_data_discards hplace hk
      (State.verdictOn_arrival hseq hn hexact ha (.inl ⟨hstop, hhandle, rfl⟩)) nofun hclose
  · exact State.replyOk_data_discards hplace hk
      (State.verdictOn_arrival hseq hn hexact ha (.inr (.inl ⟨hstop, rfl⟩))) nofun hclose
  · exact State.replyOk_data_accepts hplace hk
      (State.verdictOn_arrival hseq hn hexact ha (.inr (.inr ⟨g, hstop, hhandle, rfl⟩))) hclose

end Sys2Proof.Machine
end

section
set_option Elab.async false
/-! PROOFS. The payload bytes an arrival is handed (O52). -/

namespace Sys2Proof.Machine

open Sys2Proof.Safety

variable {s t u : State} {c : Instr} {x : Exchange}

/-! ### A payload byte in the store (R138) -/

/-- A byte stored at the end of a chain that holds its block. -/
theorem State.storeArrivalByte_stored {a : Arrival} {h : Handle} {b : Block} (v : Byte) (hbytes : BytesCanonical u)
    (hblock : (u.record h).chain[a.seen / 32]? = some b) (ht : t = u.storeArrivalByte a h v) :
    t = { u with
        inbound := { u.inbound with arrival := some { a with seen := a.seen + 1 } }
        store := { u.store with descriptors := t.store.descriptors, bytes := t.store.bytes } } ∧
      t.record h = { u.record h with length := (u.record h).length + 1 } ∧
      (∀ g, g ≠ h → t.record g = u.record g) ∧
      ∀ adr : Nat, readByte t.store.bytes adr =
        if adr = 32 * b.val + a.seen % 32 then v else readByte u.store.bytes adr := by
  subst ht
  refine ⟨?_, u.record_storeArrivalByte a h v, fun g hg => ?_, fun adr => ?_⟩
  · rw [State.storeArrivalByte, u.writeRecordByte_frame h a.seen v]
    rfl
  · refine (State.record_setRecord _ _ _ _).trans ((if_neg (Ne.symm hg)).trans ?_)
    exact u.record_writeRecordByte h g a.seen v
  · have haddress : u.recordAddress h a.seen = some (32 * b.val + a.seen % 32) := by
      rw [State.recordAddress, Config.blockBytes, hblock, Nat.mul_comm]
      rfl
    rw [u.bytes_storeArrivalByte, u.readByte_writeRecordByte h a.seen v adr hbytes, haddress]
    exact if_congr ⟨fun k => (Option.some.inj k).symm, fun k => k ▸ rfl⟩ rfl rfl

/-- The head block of the free list joins a record's chain. -/
theorem State.appendBlock_appended {h : Handle} {b : Block} (hu : u = s.appendBlock h b) :
    u = { s with
        store := { s.store with
          freeList := s.store.freeList.tail, descriptors := u.store.descriptors, restraint := u.store.restraint }
        host := { s.host with
          restraintCause := s.host.restraintCause || decide (u.store.restraint ≠ s.store.restraint) } } ∧
      u.store.restraint = (if s.store.freeList.length - 1 ≤ s.store.low then .restrained else s.store.restraint) ∧
      u.record h = { s.record h with chain := (s.record h).chain ++ [b] } ∧
      ∀ g, g ≠ h → u.record g = s.record g := by
  subst hu
  refine ⟨?_, ?_, s.record_appendBlock h b, fun g hg => ?_⟩
  · rw [State.appendBlock, State.takeBlocks_eq, List.drop_one]
    rfl
  · rw [State.appendBlock, State.takeBlocks_eq]
    rfl
  · exact (State.record_takeBlocks _ _ _).trans ((State.record_setRecord _ _ _ _).trans (if_neg (Ne.symm hg)))

/-- A payload byte is stored in block `b`, which is appended first where the byte is a block's first (R138). -/
abbrev ByteStored (s t : State) (a : Arrival) (h : Handle) (b : Block) (v : Byte) : Prop :=
  t.inbound = { s.inbound with arrival := some { a with seen := a.seen + 1, stop := none } } ∧
  t.record h = { s.record h with
    length := (s.record h).length + 1
    chain := if a.seen % 32 = 0 then (s.record h).chain ++ [b] else (s.record h).chain } ∧
  (∀ g, g ≠ h → t.record g = s.record g) ∧
  t.store.freeList = (if a.seen % 32 = 0 then s.store.freeList.tail else s.store.freeList) ∧
  (∀ adr : Nat, readByte t.store.bytes adr =
    if adr = 32 * b.val + a.seen % 32 then v else readByte s.store.bytes adr) ∧
  t.store.low = s.store.low ∧ t.store.high = s.store.high ∧
  t.store.restraint = (if a.seen % 32 = 0 ∧ s.store.freeList.length - 1 ≤ s.store.low
    then .restrained else s.store.restraint) ∧
  t.host = { s.host with
    restraintCause := s.host.restraintCause || decide (t.store.restraint ≠ s.store.restraint) } ∧
  SameOutsideStore s t

/-- A block's first byte. -/
theorem ByteStored.of_first {a : Arrival} {h : Handle} {b : Block} {v : Byte} (hbytes : BytesCanonical s)
    (hstop : a.stop = none) (hblock : a.seen % 32 = 0) (hlength : (s.record h).chain.length = a.seen / 32)
    (ht : t = (s.appendBlock h b).storeArrivalByte a h v) : ByteStored s t a h b v := by
  obtain ⟨happended, hrestraint, hrecord, hother⟩ := State.appendBlock_appended (s := s) (h := h) (b := b) rfl
  generalize s.appendBlock h b = u at happended hrestraint hrecord hother ht
  have hget : (u.record h).chain[a.seen / 32]? = some b := by
    rw [hrecord, ← hlength]
    exact List.getElem?_concat_length
  obtain ⟨hframe, hstored, hothers, hread⟩ := State.storeArrivalByte_stored v (by rw [happended]; exact hbytes) hget ht
  have hkept : t.store.restraint = u.store.restraint := by rw [hframe]
  rw [ByteStored, if_pos hblock, if_pos hblock, ← hstop]
  refine ⟨?_, ?_, fun k hk => (hothers k hk).trans (hother k hk), ?_, fun adr => ?_, ?_, ?_, ?_, ?_, ?_⟩
  · rw [hframe, happended]
  · rw [hstored, hrecord]
  · rw [hframe, happended]
  · rw [hread, happended]
  · rw [hframe, happended]
  · rw [hframe, happended]
  · rw [hkept, hrestraint]
    exact if_congr ⟨fun k => ⟨hblock, k⟩, fun k => k.2⟩ rfl rfl
  · rw [hkept]
    exact (congrArg State.host hframe).trans (congrArg State.host happended)
  · rw [hframe, happended]
    exact ⟨rfl, rfl, rfl, rfl, rfl, rfl, rfl, rfl, rfl, rfl⟩

/-- Any later byte of a block. -/
theorem ByteStored.of_later {a : Arrival} {h : Handle} {b : Block} {v : Byte} (hbytes : BytesCanonical s)
    (hstop : a.stop = none) (hblock : a.seen % 32 ≠ 0) (hlength : (s.record h).chain.length = a.seen / 32 + 1)
    (hlast : (s.record h).chain.getLast? = some b) (ht : t = s.storeArrivalByte a h v) : ByteStored s t a h b v := by
  have hget : (s.record h).chain[a.seen / 32]? = some b := by
    rw [List.getLast?_eq_getElem?, hlength, Nat.add_sub_cancel] at hlast
    exact hlast
  obtain ⟨hframe, hstored, hothers, hread⟩ := State.storeArrivalByte_stored v hbytes hget ht
  have hsame : t.store.restraint = s.store.restraint := by rw [hframe]
  have hhost : t.host = s.host := by rw [hframe]
  rw [ByteStored, if_neg hblock, if_neg hblock, if_neg fun k => hblock k.1]
  refine ⟨by rw [hframe, hstop], hstored, hothers, by rw [hframe], hread, by rw [hframe], by rw [hframe], hsame, ?_, ?_⟩
  · simp [hsame, hhost]
  · rw [hframe]
    exact ⟨rfl, rfl, rfl, rfl, rfl, rfl, rfl, rfl, rfl, rfl⟩

/-! ### The bytes a reply's frame hands over (R93) -/

theorem kindOfCode_data (k : BitVec 4) : kindOfCode k = some .data ↔ k = 1#4 := by
  revert k
  decide

/-- The header of the record expected (R40, R137). -/
theorem State.startsArrival_iff {e : EntryId} (hplace : x.place = .station e) (h : Header) :
    s.startsArrival x e h = true ↔
      (x.kind = .poll ∨ x.kind = .roundPoll) ∧ h.dest = 0#8 ∧ h.src = (s.entry e).address.getD 0#8 ∧
        h.ctrl.extractLsb' 5 3 = 0#3 ∧ h.ctrl.extractLsb' 0 4 = 1#4 ∧ h.ctrl.getLsbD 4 = (s.entry e).rxExpect := by
  rw [← kindOfCode_data, State.startsArrival, hplace]
  simp only [Bool.and_eq_true, Bool.or_eq_true, beq_iff_eq, and_assoc]
  rfl

/-- An arrival with no handle FREE. -/
theorem State.beginArrival_noHandle (hfull : ∀ h, (s.record h).state ≠ .free) (source : Byte) :
    s.beginArrival source =
      s.setArrival (some { handle := none, source := source, seen := 0, stop := some .noHandle }) := by
  rw [State.beginArrival, s.lowestFreeHandle_none.mpr hfull]

/-- An arrival in the lowest FREE handle. -/
theorem State.beginArrival_lowest {h : Handle} (hfree : (s.record h).state = .free)
    (hlowest : ∀ g : Handle, g.val < h.val → (s.record g).state ≠ .free) (source : Byte) :
    s.beginArrival source =
      (s.setRecord h { state := .arriving, length := 0, chain := [], origin := source, keep := false }).setArrival
        (some { handle := some h, source := source, seen := 0, stop := none }) := by
  rw [State.beginArrival, (s.lowestFreeHandle_some h).mpr ⟨hfree, hlowest⟩]

/-- The third body byte completes the header (R93). -/
theorem State.handHeader_held {e : EntryId} (hx : s.exchange = some x) (hplace : x.place = .station e) (h : Header)
    {r : Bool} (hno : ¬ (r = false ∧ s.inbound.arrival = none ∧ s.startsArrival x e h = true)) :
    s.handHeader h r = s.setExchange (some { x with header := some h }) := by
  rw [State.handHeader, hx]
  dsimp only
  rw [hplace]
  exact if_neg fun k => hno (by simpa [and_assoc] using k)

theorem State.handHeader_begins {e : EntryId} (hx : s.exchange = some x) (hplace : x.place = .station e) (h : Header)
    {r : Bool} (hr : r = false) (hnone : s.inbound.arrival = none) (hstarts : s.startsArrival x e h = true) :
    s.handHeader h r = (s.setExchange (some { x with header := some h })).beginArrival h.src := by
  rw [State.handHeader, hx]
  dsimp only
  rw [hplace]
  exact if_pos (by rw [hr, hnone, hstarts]; rfl)

theorem State.handPayload_taken {e : EntryId} (hx : s.exchange = some x) (hplace : x.place = .station e) (v : Byte) :
    s.handPayload v =
      (s.setExchange (some { x with firstPayload := some (x.firstPayload.getD v) })).takePayloadByte
        (s.entry e).inboundLimit v := by
  rw [State.handPayload, hx]
  dsimp only
  rw [hplace]
  cases x.firstPayload <;> rfl

/-- A body byte of a reply's frame that fits. -/
theorem State.decodeByte_reply {f : InFrame} (h : f.oversize = false) (hcount : f.count < 485) (hdest : f.dest = .reply)
    (w : Byte) :
    (f.count ≠ 2 → f.releases = none → s.decodeByte f w = s.setReceiver (.frame (f.hold w))) ∧
    (f.count = 2 → ∀ d c : Byte, f.head = [d, c] → s.decodeByte f w =
      (s.setReceiver (.frame (f.hold w))).handHeader ⟨d, c, w⟩ f.restarted) ∧
    (f.count ≠ 2 → ∀ q, f.releases = some q → s.decodeByte f w =
      (s.setReceiver (.frame (f.hold w))).handPayload q) := by
  obtain ⟨-, hheldCount, -, -, -, -, -, hrestarted, hhead⟩ := f.hold_marks w
  refine ⟨fun hnot hnone => ?_, fun hthird d c hdc => ?_, fun hnot q hq => ?_⟩
  all_goals
    rw [State.decodeByte, if_neg (by rw [h]; exact nofun),
      if_neg (show ¬ Config.maxBody ≤ f.count from Nat.not_le.mpr hcount), hdest]
    dsimp only
    rw [hheldCount]
  · rw [hnone, if_neg (by omega)]
  · have hnone : f.releases = none := if_neg (by omega)
    have hheader : (f.hold w).header = some ⟨d, c, w⟩ := by
      rw [InFrame.header, hhead, if_pos (by omega), hdc]
      rfl
    rw [hnone, if_pos (by omega), hheader]
    dsimp only
    rw [hrestarted]
  · rw [hq, if_neg (by omega)]

/-- A body byte, plain or shifted, reaches the decoder of body bytes (R92). -/
theorem State.receive_bodyByte {f : InFrame} {v w : Byte} (hline : s.line.lineHeld = false) (hrx : s.line.rx = .frame f)
    (hw : (f.shiftPending = false ∧ v ≠ 0xE0#8 ∧ v ≠ 0xE1#8 ∧ v ≠ 0xE2#8 ∧ w = v) ∨
      (f.shiftPending = true ∧ (v = 0xEF#8 ∨ v = 0xEE#8 ∨ v = 0xED#8) ∧ w = v ^^^ 0x0F#8)) :
    s.receive v (evenParity v) true = (s.heardInside true).decodeByte { f with shiftPending := false } w := by
  rw [State.receive_good hline hrx ⟨rfl, rfl⟩]
  rcases hw with ⟨hpending, hmarker, hend, hshift, rfl⟩ | ⟨hpending, hv, rfl⟩
  · have hplain : ({ f with shiftPending := false } : InFrame) = f := by rw [← hpending]
    rw [State.decodeGood_plain hpending (by simp [hmarker, hend, hshift]), hplain]
  · exact State.decodeGood_shifted hpending hv

/-- The state with a frame's byte held and the timers reloaded. -/
def State.keptByte (s : State) (f : InFrame) (w : Byte) : State :=
  { s with line := { s.line with
    guardTimer := s.line.guardTime, gapTimer := s.line.gapTime, rx := .frame (heldFrame f w) } }

theorem State.setReceiver_heardInside {f : InFrame} (w : Byte) (hline : s.line.lineHeld = false) :
    (s.heardInside true).setReceiver (.frame (({ f with shiftPending := false } : InFrame).hold w)) = s.keptByte f w := by
  rw [InFrame.hold_held, State.heardInside_held hline]
  rfl

/-- What a body byte of a reply's frame leaves, by the bytes decoded before it (R93, R138). -/
theorem State.receive_reply {f : InFrame} {e : EntryId} {v w : Byte} (hline : s.line.lineHeld = false)
    (hrx : s.line.rx = .frame f) (hdest : f.dest = .reply) (hover : f.oversize = false) (hcount : f.count < 485)
    (hx : s.exchange = some x) (hplace : x.place = .station e)
    (hw : (f.shiftPending = false ∧ v ≠ 0xE0#8 ∧ v ≠ 0xE1#8 ∧ v ≠ 0xE2#8 ∧ w = v) ∨
      (f.shiftPending = true ∧ (v = 0xEF#8 ∨ v = 0xEE#8 ∨ v = 0xED#8) ∧ w = v ^^^ 0x0F#8)) :
    (f.count ≠ 2 → f.count < 5 → s.receive v (evenParity v) true = s.keptByte f w) ∧
    (f.count = 2 → ∀ d c : Byte, f.head = [d, c] → s.receive v (evenParity v) true =
      (s.keptByte f w).handHeader ⟨d, c, w⟩ f.restarted) ∧
    (5 ≤ f.count → f.newer ≠ none → ∀ q ∈ f.older, s.receive v (evenParity v) true =
      State.takePayloadByte { s.keptByte f w with exchange := some { x with firstPayload := some (x.firstPayload.getD q) } }
        (s.entry e).inboundLimit q) := by
  obtain ⟨hplain, hheader, hpayload⟩ :=
    State.decodeByte_reply (s := s.heardInside true) (f := { f with shiftPending := false }) hover hcount hdest w
  rw [← State.receive_bodyByte hline hrx hw, State.setReceiver_heardInside w hline] at hplain hheader hpayload
  refine ⟨fun hnot hfew => hplain hnot (if_neg fun k => Nat.not_le.mpr hfew k.1), hheader, fun hfive hnewer q hq => ?_⟩
  have hreleases : ({ f with shiftPending := false } : InFrame).releases = some q :=
    (if_pos ⟨hfive, Option.isSome_iff_ne_none.mpr hnewer⟩).trans hq
  exact (hpayload (by show f.count ≠ 2; omega) q hreleases).trans (State.handPayload_taken (s := s.keptByte f w) hx hplace q)

/-- Settles O52: the byte stored, and the bytes the decoder hands over. -/
theorem payloadBytesAreStored : Obligations.PayloadBytesAreStored := by
  refine ⟨fun s limit v hnone => by rw [State.takePayloadByte, hnone], fun s a limit v ha hbytes => ?_,
    fun s f x e v w hheld hline hrx hdest hover hcount hx hplace hw => ?_⟩
  · rcases s.takePayloadByte_cases limit v a ha with ⟨hnot, ht⟩ | ⟨g, hstop, hhandle, hcases⟩
    · refine ⟨fun _ => ht, fun hstop h hh => ?_⟩
      rcases hnot with hnot | hnot
      · exact absurd hstop hnot
      · cases hnot.symm.trans hh
    · refine ⟨fun hnot => ?_, fun _ h hh => ?_⟩
      · rcases hnot with hnot | hnot
        · exact absurd hstop hnot
        · cases hnot.symm.trans hhandle
      · obtain rfl : g = h := Option.some.inj (hhandle.symm.trans hh)
        rcases hcases with ⟨hlimit, ht⟩ | ⟨hlimit, hblock, hempty, ht⟩ | ⟨b, rest, hlimit, hblock, hlist, ht⟩ |
          ⟨hlimit, hblock, ht⟩
        · refine ⟨fun _ => ht, fun k => ?_, fun k => ?_⟩ <;> omega
        · refine ⟨fun _ => by omega, fun _ _ _ => ht, fun _ k => absurd hempty (k hblock).1⟩
        · refine ⟨fun _ => by omega, fun _ _ k => absurd (hlist.symm.trans k) (List.cons_ne_nil _ _),
            fun _ hfirst _ b' hb' _ => ?_⟩
          obtain rfl : b = b' := Option.some.inj ((congrArg List.head? hlist).symm.trans (hb' hblock))
          exact ByteStored.of_first hbytes hstop hblock (hfirst hblock).2 ht
        · exact ⟨fun _ => by omega, fun _ k => absurd k hblock, fun _ _ hlater b _ hb =>
            ByteStored.of_later hbytes hstop hblock (hlater hblock) (hb hblock) ht⟩
  · obtain ⟨hplain, hheader, hpayload⟩ := State.receive_reply hline hrx hdest hover hcount hx hplace hw
    refine ⟨fun hnot hfew => happens_characterReceived hheld (hplain hnot hfew), fun hthird d c hdc => ?_,
      fun hfive hnewer q hq => happens_characterReceived hheld (hpayload hfive hnewer q hq)⟩
    have hstarts := State.startsArrival_iff (s := s.keptByte f w) hplace ⟨d, c, w⟩
    have hbegins hr hnone hexpected := State.handHeader_begins (s := s.keptByte f w) (r := f.restarted) hx hplace
      ⟨d, c, w⟩ hr hnone (hstarts.mpr hexpected)
    refine ⟨fun hno => ?_, fun ⟨hr, hnone, hexpected⟩ hfull => ?_, fun ⟨hr, hnone, hexpected⟩ h hfree hlowest => ?_⟩
    all_goals refine happens_characterReceived hheld ((hheader hthird d c hdc).trans ?_)
    · exact State.handHeader_held (s := s.keptByte f w) hx hplace _ fun ⟨hr, hnone, k⟩ => hno ⟨hr, hnone, hstarts.mp k⟩
    · exact (hbegins hr hnone hexpected).trans
        (State.beginArrival_noHandle (s := State.setExchange (s.keptByte f w) _) hfull _)
    · exact (hbegins hr hnone hexpected).trans
        (State.beginArrival_lowest (s := State.setExchange (s.keptByte f w) _) hfree hlowest _)

end Sys2Proof.Machine
end
